-- ==== Sys2Proof/Word.lean ====
section
/-! DEFINITION. The block's number formats (R7): bytes, 32-bit words, the 64-bit associated-data length,
16-byte blocks. All unsigned. -/

namespace Sys2Proof

/-- The addressable unit of every byte space (R71). -/
abbrev Byte := BitVec 8

/-- A host-visible register, a length or an offset: 32 bits, unsigned (R7). -/
abbrev Word := BitVec 32

/-- The associated-data length: 64 bits, unsigned (R7, R25). -/
abbrev Long := BitVec 64

/-- A 16-byte block: a byte string, byte 0 first (R10, R74). -/
abbrev Block := Vector Byte 16

/-- The nonce operand of the Framing Encoder: the 13 bytes of the NONCE space (R141). -/
abbrev NonceBytes := Vector Byte 13

/-- Sixteen zero bytes, `0^16` of R11. -/
abbrev Block.zero : Block := ⟨⟨List.replicate 16 0⟩, by simp⟩

end Sys2Proof
end

