-- ==== Sys2Proof/Config.lean ====
section
/-! DEFINITION. The identity of the hardware (R1) and what the spec leaves to the implementation: the two OPEN parameters `CAP` (R6, D1) and
`Engine` (R9, D28), each an opaque constant, with the calls the block makes to the engine and the
answers it may give. -/

namespace Sys2Proof

/-- The identity a model carries (R1). -/
def Config.identity : String :=
  "AES-CCM orchestrator and framer (nvmexp/lw_firmware#sub158), source specification v7"

/-- A collaborator call with its arguments (R260 to R263), `key_ctx` first. -/
inductive Call where
  /-- `ecb_encrypt_block(key_ctx, in[16])` (R260). -/
  | ecbEncryptBlock (keyCtx : Word) (inp : Block)
  /-- `ctr_encrypt(key_ctx, counter_state, buf, len)` (R261). -/
  | ctrEncrypt (keyCtx : Word) (counter : Block) (buf : List Byte) (len : Word)
  /-- `cbc_mac(key_ctx, buf, len)` (R262). -/
  | cbcMac (keyCtx : Word) (buf : List Byte) (len : Word)
  /-- `keyslot_erase(key_ctx)` (R263). -/
  | keyslotErase (keyCtx : Word)
deriving DecidableEq, Repr

/-- The outcome of a collaborator call (R265). `ok block data`: `block` is `out` of R260, `counter'` of
R261 or `mac` of R262; `data` is `buf'` of R261. -/
inductive Answer where
  /-- The generic engine error (R264). -/
  | fail
  /-- The call never returns (R219, R265). -/
  | noReturn
  | ok (block : Block) (data : List Byte)
deriving DecidableEq, Repr, Inhabited

/-- The `Engine` parameter (R9, R265): the outcome of a call, from its position in the run and its
arguments. Nothing is known of it. DESIGN CHOICE, entry 2; safe. -/
opaque Config.engine : Nat → Call → Answer

/-- The parameter `CAP` (R6), as `CAP/16 - 2`: the type holds exactly the legal capacities, the multiples
of 16 from 32 to 2^32 - 16. Nothing else is known of it. DESIGN CHOICE, entry 3; safe. -/
opaque Config.capUnits : Fin 268435454

end Sys2Proof
end

