-- ==== Sys2Proof/Syntax.lean ====
section
/-! DEFINITION. The operations of the block: one constructor of `Instr` for each row of
spec/opcode_table.json, and the events of the environment that select them (R105, R120). -/

namespace Sys2Proof

/-- The arguments of the pseudo-instruction `ccm_process` (R255). -/
structure CcmArgs where
  isEncrypt : Bool
  nonce     : List Byte
  nonceLen  : Word
  tagLen    : Word
  aad       : List Byte
  aadLen    : Long
  input     : List Byte
  inputLen  : Word
  keepKey   : Bool
deriving DecidableEq, Repr

/-- One constructor per row of spec/opcode_table.json, in the table's order. -/
inductive Instr where
  -- cmd rows: the CMD word (R100, R101)
  /-- CCM_ENCRYPT (R244); `keep` is KEEP_KEY, bit 2. -/
  | ccmEncrypt (keep : Bool)
  /-- CCM_DECRYPT (R244). -/
  | ccmDecrypt (keep : Bool)
  /-- NOP (R245): GO = 0; `ignored` is bits 31:1. -/
  | nop (ignored : BitVec 31)
  /-- CMD_RESERVED (R252): GO = 1 and `reserved`, bits 31:3, not zero. -/
  | cmdReserved (reserved : BitVec 29) (keep isEnc : Bool)
  -- phase rows (R104, R200)
  /-- IDLE (R218). -/
  | idle
  /-- VALIDATE_ARGS (R201). -/
  | validateArgs
  /-- COMPOSE_FRAME (R202). -/
  | composeFrame
  /-- TAG_PREPARE.enc (R204). -/
  | tagPrepareEnc
  /-- TAG_PREPARE.dec (R205). -/
  | tagPrepareDec
  /-- CIPHER_PAYLOAD, the phase (R206). -/
  | cipherPayload
  /-- TAG_FINALIZE (R207). -/
  | tagFinalize
  /-- TAG_VERIFY (R208). -/
  | tagVerify
  /-- EMIT_RESULT.enc (R209). -/
  | emitResultEnc
  /-- EMIT_RESULT.dec (R210). -/
  | emitResultDec
  /-- CLEANUP (R211 to R214). -/
  | cleanup
  -- host rows (R240 to R255)
  /-- HWR(reg, value) (R241). -/
  | hwr (reg value : Word)
  /-- HRD(reg) (R242). -/
  | hrd (reg : Word)
  /-- HWRB(space, offset, byte) (R243). The width of a selector is not stated: any number. -/
  | hwrb (space : Nat) (offset : Word) (value : Byte)
  /-- HRDB(space, offset) (R243). -/
  | hrdb (space : Nat) (offset : Word)
  /-- POLL (R253). -/
  | poll
  /-- CCM_PROCESS (R255). -/
  | ccmProcess (args : CcmArgs)
  -- function rows
  /-- cadd32(a, b) (R11, R12). -/
  | cadd32 (a b : Word)
  /-- ceil16(x) (R11, R12). -/
  | ceil16 (x : Word)
  /-- ENC_B0_FLAGS (R140). -/
  | encB0Flags (nonceLen tagLen : Word) (aadPresent : Bool) (payloadLen : Word)
  /-- ENC_B0 (R141). -/
  | encB0 (nonce : NonceBytes) (nonceLen tagLen : Word) (aadLen : Long) (payloadLen : Word)
  /-- ENC_CTR0_FLAGS (R142). -/
  | encCtr0Flags (nonceLen : Word)
  /-- ENC_CTR0 (R143). -/
  | encCtr0 (nonce : NonceBytes) (nonceLen : Word)
  /-- ENC_AAD_LEN (R144). -/
  | encAadLen (aadLen : Long)
  /-- LEN_FITS (R145). -/
  | lenFits (q : Nat) (payloadLen : Word)
  /-- CTR_M (R146). -/
  | ctrM (nonce : NonceBytes) (nonceLen : Word) (m : Nat)
  /-- COMPOSE (R160). -/
  | compose
  /-- COMPUTE_TAG (R180). -/
  | computeTag (dataLen : Word)
  /-- XOR_MASK (R182). -/
  | xorMask (tag : List Byte) (s0 : Block) (tagLen : Word)
  /-- VERIFY (R183). -/
  | verify (cand exp : List Byte) (tagLen : Word)
  /-- CIPHER_PAYLOAD.fn: the function CIPHER_PAYLOAD(off, len) (R190). -/
  | cipherPayloadFn (off len : Word)
  -- call rows; `key_ctx` is KEY_CTX (R266), the block arguments are CTR (R260, R261)
  /-- ecb_encrypt_block (R260). -/
  | ecbEncryptBlock
  /-- ctr_encrypt over `WBUF[off, off+len)` (R261). -/
  | ctrEncrypt (off len : Word)
  /-- cbc_mac over `WBUF[0, len)` (R262). -/
  | cbcMac (len : Word)
  /-- keyslot_erase (R263). -/
  | keyslotErase
  -- event row
  /-- RESET (R311). -/
  | reset
deriving DecidableEq, Repr

/-- An event of the environment (R240, R310), or the Orchestrator's turn. -/
inductive Event where
  /-- The Orchestrator's turn: one phase step if it can take one (R200). -/
  | tick
  | hwr (reg value : Word)
  | hrd (reg : Word)
  | hwrb (space : Nat) (offset : Word) (value : Byte)
  | hrdb (space : Nat) (offset : Word)
  | poll
  | ccmProcess (args : CcmArgs)
  /-- The last lines of `ccm_process`, after its poll (R255): read STATUS, OUT_LEN and OUT. -/
  | ccmReturn
  | reset
deriving DecidableEq, Repr

end Sys2Proof
end

