-- ==== Sys2Proof/WellFormed.lean ====
section
/-! DEFINITION. The operands the spec admits for each operation. -/

namespace Sys2Proof

/-- The nonce lengths on which the counter-block functions are defined, 7 to 13 (R142). -/
def nonceLenInDomain (n : Word) : Bool := 7 ≤ n.toNat && n.toNat ≤ 13

/-- The strings handed to `ccm_process` have the lengths handed with them (R255). -/
def CcmArgs.wellFormed (a : CcmArgs) : Bool :=
  a.nonce.length == a.nonceLen.toNat && a.aad.length == a.aadLen.toNat && a.input.length == a.inputLen.toNat

/-- An operation with operands the spec admits: CMD_RESERVED has a reserved bit set (R101), a function's
operands lie in its stated domain (R142 to R146, R182, R183), a call's length passes the
stage-boundary check (R215, R261, R262). -/
def Instr.wellFormed : Instr → Bool
  | .ccmEncrypt _ => true
  | .ccmDecrypt _ => true
  | .nop _ => true
  | .cmdReserved r _ _ => r != 0
  | .idle => true
  | .validateArgs => true
  | .composeFrame => true
  | .tagPrepareEnc => true
  | .tagPrepareDec => true
  | .cipherPayload => true
  | .tagFinalize => true
  | .tagVerify => true
  | .emitResultEnc => true
  | .emitResultDec => true
  | .cleanup => true
  | .hwr _ _ => true
  | .hrd _ => true
  | .hwrb _ _ _ => true
  | .hrdb _ _ => true
  | .poll => true
  | .ccmProcess a => a.wellFormed
  | .cadd32 _ _ => true
  | .ceil16 _ => true
  | .encB0Flags _ _ _ _ => true
  | .encB0 _ _ _ _ _ => true
  | .encCtr0Flags n => nonceLenInDomain n
  | .encCtr0 _ n => nonceLenInDomain n
  | .encAadLen _ => true
  | .lenFits q _ => 2 ≤ q && q ≤ 8
  | .ctrM _ n m => nonceLenInDomain n && m < 256 ^ (15 - n.toNat)
  | .compose => true
  | .computeTag _ => true
  | .xorMask tag _ n => tag.length == n.toNat && n.toNat ≤ 16
  | .verify cand exp n => cand.length == n.toNat && exp.length == n.toNat
  | .cipherPayloadFn _ _ => true
  | .ecbEncryptBlock => true
  | .ctrEncrypt _ len => len.toNat % 16 == 0 && 0 < len.toNat
  | .cbcMac len => len.toNat % 16 == 0 && 16 ≤ len.toNat
  | .keyslotErase => true
  | .reset => true

end Sys2Proof
end

