-- ==== Sys2Proof/Decode.lean ====
section
/-! DEFINITION. What selects an operation, and the decoder and encoder of the two encodings the spec gives:
the 32-bit CMD word (R100, R101) and the 4-bit PHASE code with IS_ENC (R104, R120). A host transaction
has no bit encoding: it is the tuple of its operands (R105). -/

namespace Sys2Proof

/-- What selects the next operation: the phase register with IS_ENC (R120), or an event of the
environment (R105, R310). -/
inductive Selector where
  | phase (code : BitVec 4) (isEnc : Bool)
  | event (e : Event)
deriving DecidableEq, Repr

/-- Why a selector names no operation. -/
inductive DecodeError where
  /-- PHASE codes 9 to 15 are unused (R104). -/
  | reservedPhase (code : BitVec 4)
  /-- `tick` and `ccmReturn` are the model's own events, no rows of the table. -/
  | notAnInstruction
deriving DecidableEq, Repr

/-- The CMD word from its fields (R100). -/
def cmdWord (reserved : BitVec 29) (keep isEnc go : Bool) : Word :=
  reserved ++ BitVec.ofBool keep ++ BitVec.ofBool isEnc ++ BitVec.ofBool go

/-- Decoding a CMD word written while the block is idle, in the order of R101. -/
def decodeCmd (w : Word) : Instr :=
  if w.getLsbD 0 = false then .nop (w.extractLsb' 1 31)
  else if w.extractLsb' 3 29 ≠ 0 then .cmdReserved (w.extractLsb' 3 29) (w.getLsbD 2) (w.getLsbD 1)
  else if w.getLsbD 1 then .ccmEncrypt (w.getLsbD 2)
  else .ccmDecrypt (w.getLsbD 2)

/-- Decoding the PHASE code (R104); IS_ENC selects the arm of the two-armed phases (R120). -/
def decodePhase (code : BitVec 4) (isEnc : Bool) : Except DecodeError Instr :=
  match code.toNat with
  | 0 => .ok .idle
  | 1 => .ok .validateArgs
  | 2 => .ok .composeFrame
  | 3 => .ok (if isEnc then .tagPrepareEnc else .tagPrepareDec)
  | 4 => .ok .cipherPayload
  | 5 => .ok .tagFinalize
  | 6 => .ok .tagVerify
  | 7 => .ok (if isEnc then .emitResultEnc else .emitResultDec)
  | 8 => .ok .cleanup
  | _ => .error (.reservedPhase code)

/-- Decoding any selector. A write of register 0 is the CMD word it carries (R241). -/
def decode : Selector → Except DecodeError Instr
  | .phase code isEnc => decodePhase code isEnc
  | .event (.hwr reg value) => .ok (if reg = 0 then decodeCmd value else .hwr reg value)
  | .event (.hrd reg) => .ok (.hrd reg)
  | .event (.hwrb space offset value) => .ok (.hwrb space offset value)
  | .event (.hrdb space offset) => .ok (.hrdb space offset)
  | .event .poll => .ok .poll
  | .event (.ccmProcess a) => .ok (.ccmProcess a)
  | .event .reset => .ok .reset
  | .event .tick => .error .notAnInstruction
  | .event .ccmReturn => .error .notAnInstruction

/-- The selector of an operation, `none` for the function and call rows, which nothing selects (R120).
A phase with one arm is written with IS_ENC as its path has it, 0 where both paths share it. -/
def encode : Instr → Option Selector
  | .ccmEncrypt keep => some (.event (.hwr 0 (cmdWord 0 keep true true)))
  | .ccmDecrypt keep => some (.event (.hwr 0 (cmdWord 0 keep false true)))
  | .nop ignored => some (.event (.hwr 0 (ignored ++ BitVec.ofBool false)))
  | .cmdReserved reserved keep isEnc => some (.event (.hwr 0 (cmdWord reserved keep isEnc true)))
  | .idle => some (.phase 0 false)
  | .validateArgs => some (.phase 1 false)
  | .composeFrame => some (.phase 2 false)
  | .tagPrepareEnc => some (.phase 3 true)
  | .tagPrepareDec => some (.phase 3 false)
  | .cipherPayload => some (.phase 4 false)
  | .tagFinalize => some (.phase 5 true)
  | .tagVerify => some (.phase 6 false)
  | .emitResultEnc => some (.phase 7 true)
  | .emitResultDec => some (.phase 7 false)
  | .cleanup => some (.phase 8 false)
  | .hwr reg value => some (.event (.hwr reg value))
  | .hrd reg => some (.event (.hrd reg))
  | .hwrb space offset value => some (.event (.hwrb space offset value))
  | .hrdb space offset => some (.event (.hrdb space offset))
  | .poll => some (.event .poll)
  | .ccmProcess a => some (.event (.ccmProcess a))
  | .cadd32 _ _ => none
  | .ceil16 _ => none
  | .encB0Flags _ _ _ _ => none
  | .encB0 _ _ _ _ _ => none
  | .encCtr0Flags _ => none
  | .encCtr0 _ _ => none
  | .encAadLen _ => none
  | .lenFits _ _ => none
  | .ctrM _ _ _ => none
  | .compose => none
  | .computeTag _ => none
  | .xorMask _ _ _ => none
  | .verify _ _ _ => none
  | .cipherPayloadFn _ _ => none
  | .ecbEncryptBlock => none
  | .ctrEncrypt _ _ => none
  | .cbcMac _ => none
  | .keyslotErase => none
  | .reset => some (.event .reset)

/-- The selector a word of spec/opcode_table.json stands for: a 32-bit word is a write of the CMD register;
a word of one byte (or nibble) is a PHASE code in bits 3:0, with IS_ENC in bit 4 (entry 14). -/
def selectorOfTableWord (nbits w : Nat) : Option Selector :=
  if nbits = 32 then some (.event (.hwr 0 (BitVec.ofNat 32 w)))
  else if (nbits = 8 ∨ nbits = 4) ∧ w < 32 then some (.phase (BitVec.ofNat 4 w) (w / 16 == 1))
  else none

/-- The operation the decoder reads from a word of the opcode table. -/
def decodeTableWord (nbits w : Nat) : Option Instr :=
  match selectorOfTableWord nbits w with
  | some c => (decode c).toOption
  | none => none

end Sys2Proof
end

