-- ==== Sys2Proof/Machine/State.lean ====
section
/-! DEFINITION. The state of the block (10_state.md R20), the parameter CAP and the environment a run
depends on; the reasons a step can stop; the state after reset (R311). -/

namespace Sys2Proof.Machine

/-- A byte space: (offset, byte) pairs with strictly rising offsets and no zero byte, an unlisted offset
reading 0, the spec's reset value (R55, R91). -/
abbrev Memory := List Host.Cell

/-- The canonical form of a byte space. -/
abbrev Memory.wf (m : Memory) : Prop := m.Pairwise (fun c d => c.1 < d.1) ∧ ∀ c ∈ m, c.2 ≠ 0

/-- The six errors (R103, R280). -/
inductive CcmError where
  | invalidArgument | badLength | tooBig | badState | authenticationFailed | engineFailure
deriving DecidableEq, Repr

/-- The nine phases (R104). PHASE never holds another value (R30). -/
inductive Phase where
  | idle | validateArgs | composeFrame | tagPrepare | cipherPayload | tagFinalize | tagVerify | emitResult | cleanup
deriving DecidableEq, Repr

/-- The byte spaces (R70). -/
inductive Space where
  | nonce | aad | inp | out | wbuf
deriving DecidableEq, Repr

/-- (a) Host-owned state (R20, R22 to R26, R47, R48). -/
structure HostOwned where
  keyCtx   : Word
  nonceLen : Word
  tagLen   : Word
  aadLenLo : Word
  aadLenHi : Word
  inputLen : Word
  nonce    : Memory
  aad      : Memory
  inp      : Memory
deriving DecidableEq, Repr

/-- (b) Result state (R20, R27, R32, R33, R50); `err = none` is ERR = 0. -/
structure ResultState where
  busy   : Bool
  done   : Bool
  rej    : Bool
  err    : Option CcmError
  outLen : Word
  out    : Memory
deriving DecidableEq, Repr

/-- (c) Control state (R20, R21, R30). -/
structure Control where
  phase    : Phase
  cmdLatch : Word
deriving DecidableEq, Repr

/-- (d) Working state (R20, R34 to R46, R49). -/
structure Working where
  keyUsed       : Bool
  verifyOk      : Bool
  q             : BitVec 4
  plen          : Word
  ppad          : Word
  aadPaddedLen  : Word
  payloadOffset : Word
  wbufLen       : Word
  ctr           : Block
  s0            : Block
  rawTag        : Block
  candTag       : Block
  mtag          : Block
  wbuf          : Memory
deriving DecidableEq, Repr

/-- What the last operation that returns a value returned (entry 6): a host read's data, the result of a
pseudo-instruction, or the result of a component function run on its own. -/
inductive Resp where
  | none
  /-- A 32-bit value: HRD, POLL, cadd32, ceil16. -/
  | word (w : Word)
  /-- One byte: HRDB, ENC_B0_FLAGS, ENC_CTR0_FLAGS. -/
  | byte (b : Byte)
  /-- One bit: LEN_FITS, VERIFY. -/
  | bit (b : Bool)
  /-- A byte string: ENC_B0, ENC_CTR0, CTR_M, COMPUTE_TAG, XOR_MASK, cbc_mac. -/
  | bytes (bs : List Byte)
  /-- ENC_AAD_LEN's prefix and its count. -/
  | aadPrefix (bs : List Byte) (count : Nat)
  /-- `Ok(output_len)` of CCM_PROCESS with the output bytes read (R255). -/
  | ccmOk (outLen : Word) (out : List Byte)
  /-- `Err(code)` of CCM_PROCESS (R255). -/
  | ccmErr (code : BitVec 4)
deriving DecidableEq, Repr

/-- The environment a run depends on, as data (R240, R265): the model's own fields, not the block's. -/
structure Env where
  /-- Pending events, oldest first (entry 1). -/
  events  : List Event
  /-- The collaborator's answers to the next calls; when it is empty `Config.engine` answers (entry 2). -/
  answers : List Answer
  /-- The calls the block has issued, oldest first (entry 5). -/
  calls   : List Call
  /-- The last value returned (entry 6). -/
  resp    : Resp
deriving DecidableEq, Repr

/-- The whole machine. `capUnits` is the parameter CAP (entry 3); `hung` says that a phase step is stuck in
a collaborator call that never returns (R219, entry 4). -/
structure State where
  capUnits : Fin 268435454
  host     : HostOwned
  result   : ResultState
  ctl      : Control
  work     : Working
  hung     : Bool
  env      : Env
deriving DecidableEq, Repr

/-- Why the machine stops with a fault; safe: the rule of the function states no value there. -/
inductive Fault where
  /-- Raised by a function or call row run on its own on operands outside its domain (R142, R143, R146, R182, R183,
  R191, R261); no step raises it; safe, entry 8. -/
  | outsideDomain (mnemonic : String)
deriving DecidableEq, Repr

/-- Why there is no meaning. -/
inductive Refusal where
  /-- Raised by `exec` for an instruction without a meaning; safe. No arm uses it. -/
  | notModelled (mnemonic : String)
  /-- Raised by `step` for a selector that decodes to no operation; safe, and no state of this model has one:
  PHASE is an enumeration (entry 17). -/
  | undecodable (reason : DecodeError)
deriving DecidableEq, Repr

/-- The working registers after reset and after CLEANUP: all zero (R54, R212, R311). -/
def Working.zero : Working where
  keyUsed := false
  verifyOk := false
  q := 0
  plen := 0
  ppad := 0
  aadPaddedLen := 0
  payloadOffset := 0
  wbufLen := 0
  ctr := Block.zero
  s0 := Block.zero
  rawTag := Block.zero
  candTag := Block.zero
  mtag := Block.zero
  wbuf := []

/-- The host-owned state after reset (R311). -/
def HostOwned.zero : HostOwned where
  keyCtx := 0
  nonceLen := 0
  tagLen := 0
  aadLenLo := 0
  aadLenHi := 0
  inputLen := 0
  nonce := []
  aad := []
  inp := []

/-- The result state after reset (R311). -/
def ResultState.zero : ResultState where
  busy := false
  done := false
  rej := false
  err := none
  outLen := 0
  out := []

/-- The machine right after reset (R311), with the implementation's CAP and nothing pending (entries 1 to 6). -/
def State.reset : State where
  capUnits := Config.capUnits
  host := HostOwned.zero
  result := ResultState.zero
  ctl := { phase := .idle, cmdLatch := 0 }
  work := Working.zero
  hung := false
  env := { events := [], answers := [], calls := [], resp := .none }

end Sys2Proof.Machine
end

