-- ==== Sys2Proof/Machine/Operands.lean ====
section
/-! DEFINITION. The operand forms of the spec: byte strings and big-endian integers (R10, R11), checked
arithmetic (R11, R12), the parameter CAP (R6), the 64-bit AAD_LEN (R25), register numbers and space
selectors (R51). -/

namespace Sys2Proof.Machine

/-- `BE(v, k)`: the k-byte big-endian string of v, most significant byte first (R11, R72). -/
def be (v : Nat) : Nat → List Byte
  | 0 => []
  | k + 1 => be (v / 256) k ++ [BitVec.ofNat 8 v]

/-- A byte string brought to n bytes: its first n, then zeros. -/
def fitBytes (n : Nat) (l : List Byte) : List Byte := (l ++ List.replicate n 0).take n

/-- A byte string as an n-byte register: its first n bytes, then zeros (the zero tail of R44 to R46). -/
def fit (n : Nat) (l : List Byte) : Vector Byte n := ⟨⟨fitBytes n l⟩, by simp [fitBytes]⟩

/-- `cadd32(a, b)` (R11): the sum, or TooBig where it reaches 2^32. -/
def addChecked (a b : Word) : Except CcmError Word :=
  if a.toNat + b.toNat < 2 ^ 32 then .ok (a + b) else .error .tooBig

/-- `ceil16(x)` (R11): x rounded up to a multiple of 16, or TooBig. -/
def roundUp16 (x : Word) : Except CcmError Word := do
  let y ← addChecked x 15
  return y - BitVec.ofNat 32 (y.toNat % 16)

/-- The capacity `CAP` in bytes (R6). -/
def State.cap (s : State) : Nat := 16 * (s.capUnits.val + 2)

/-- `AAD_LEN = AAD_LEN_HI * 2^32 + AAD_LEN_LO` (R25). -/
def HostOwned.aadLen (h : HostOwned) : Long := h.aadLenHi ++ h.aadLenLo

/-- The host-owned register with a number, 2 to 7 (R51). -/
def HostOwned.readReg (h : HostOwned) (reg : Word) : Option Word :=
  match reg.toNat with
  | 2 => some h.keyCtx
  | 3 => some h.nonceLen
  | 4 => some h.tagLen
  | 5 => some h.aadLenLo
  | 6 => some h.aadLenHi
  | 7 => some h.inputLen
  | _ => none

/-- Storing a value in the host-owned register with a number, 2 to 7; all 32 bits as written (R241). -/
def HostOwned.writeReg (h : HostOwned) (reg value : Word) : HostOwned :=
  match reg.toNat with
  | 2 => { h with keyCtx := value }
  | 3 => { h with nonceLen := value }
  | 4 => { h with tagLen := value }
  | 5 => { h with aadLenLo := value }
  | 6 => { h with aadLenHi := value }
  | 7 => { h with inputLen := value }
  | _ => h

/-- The register numbers a host write can store to: 2 to 7 (R241, R51). -/
def isHostReg (reg : Word) : Bool := 2 ≤ reg.toNat && reg.toNat ≤ 7

/-- The byte space of a selector: 0 NONCE, 1 AAD, 2 IN, 3 OUT; WBUF has none (R51). -/
def spaceOfSelector (n : Nat) : Option Space :=
  match n with
  | 0 => some .nonce
  | 1 => some .aad
  | 2 => some .inp
  | 3 => some .out
  | _ => none

/-- The capacity of a byte space (R70): 13 for NONCE, CAP for the others. -/
def State.capacity (s : State) : Space → Nat
  | .nonce => 13
  | .aad => s.cap
  | .inp => s.cap
  | .out => s.cap
  | .wbuf => s.cap

/-- The contents of a byte space. -/
def State.space (s : State) : Space → Memory
  | .nonce => s.host.nonce
  | .aad => s.host.aad
  | .inp => s.host.inp
  | .out => s.result.out
  | .wbuf => s.work.wbuf

end Sys2Proof.Machine
end

