-- ==== Sys2Proof/Machine/Flags.lean ====
section
/-! DEFINITION. Codes, flags and views: error and phase codes (R103, R104), STATUS (R102), the fields of
CMD_LATCH (R31). -/

namespace Sys2Proof.Machine

/-- The code of an error (R103). -/
def CcmError.code : CcmError → BitVec 4
  | .invalidArgument => 1
  | .badLength => 2
  | .tooBig => 3
  | .badState => 4
  | .authenticationFailed => 5
  | .engineFailure => 6

/-- ERR as a 4-bit value, 0 for no error (R32, R103). -/
def errCode : Option CcmError → BitVec 4
  | none => 0
  | some e => e.code

/-- The code of a phase (R104). -/
def Phase.code : Phase → BitVec 4
  | .idle => 0
  | .validateArgs => 1
  | .composeFrame => 2
  | .tagPrepare => 3
  | .cipherPayload => 4
  | .tagFinalize => 5
  | .tagVerify => 6
  | .emitResult => 7
  | .cleanup => 8

/-- The phase with a code; 9 to 15 are unused (R104). -/
def Phase.ofCode (c : BitVec 4) : Option Phase :=
  match c.toNat with
  | 0 => some .idle
  | 1 => some .validateArgs
  | 2 => some .composeFrame
  | 3 => some .tagPrepare
  | 4 => some .cipherPayload
  | 5 => some .tagFinalize
  | 6 => some .tagVerify
  | 7 => some .emitResult
  | 8 => some .cleanup
  | _ => none

/-- The STATUS word: bit 0 BUSY, bit 1 DONE, bit 2 REJ, bit 3 zero, bits 7:4 ERR, bits 31:8 zero
(R29, R102). -/
def ResultState.status (r : ResultState) : Word :=
  (0 : BitVec 24) ++ errCode r.err ++ (0 : BitVec 1) ++ BitVec.ofBool r.rej ++ BitVec.ofBool r.done
    ++ BitVec.ofBool r.busy

/-- IS_ENC, bit 1 of CMD_LATCH (R31). -/
def State.isEnc (s : State) : Bool := s.ctl.cmdLatch.getLsbD 1

/-- KEEP_KEY, bit 2 of CMD_LATCH (R31). -/
def State.keepKey (s : State) : Bool := s.ctl.cmdLatch.getLsbD 2

/-- Some bit of `word[31:3]`, the reserved field of a CMD word, is set (R100, R101). -/
def reservedBitsSet (word : Word) : Bool := word.extractLsb' 3 29 != 0

/-- The seven legal tag lengths (R8). -/
def legalTagLen (t : Word) : Bool := [4, 6, 8, 10, 12, 14, 16].contains t.toNat

/-- The legal nonce lengths, 7 to 13 (R8). -/
def legalNonceLen (n : Word) : Bool := 7 ≤ n.toNat && n.toNat ≤ 13

end Sys2Proof.Machine
end

