-- ==== Sys2Proof/Machine/Ops.lean ====
section
/-! DEFINITION. The named operations every meaning is built from: byte spaces, the end of a phase step, the
failure entry (R288) and the return from it (R214), START (R244), the CMD write (R101), the
collaborator request (R264, R265). -/

namespace Sys2Proof.Machine

/-! ### Byte spaces (R11, R91) -/

/-- One byte of a space; an unlisted offset reads 0. -/
def Memory.get : Memory → Nat → Byte
  | [], _ => 0
  | (a, b) :: m, x => if x = a then b else Memory.get m x

/-- Inserting an entry at its place in rising order. -/
def Memory.insert : Memory → Nat → Byte → Memory
  | [], x, v => [(x, v)]
  | (a, b) :: m, x, v => if x < a then (x, v) :: (a, b) :: m else (a, b) :: Memory.insert m x v

/-- Writing one byte; writing 0 removes the entry. -/
def Memory.set (m : Memory) (x : Nat) (v : Byte) : Memory :=
  if v = 0 then m.filter (fun c => c.1 ≠ x) else Memory.insert (m.filter (fun c => c.1 ≠ x)) x v

/-- `MemRead(S+x, n)`: the n bytes at offsets x .. x+n-1, lowest first. -/
def Memory.readBytes (m : Memory) (x : Nat) : Nat → List Byte
  | 0 => []
  | n + 1 => m.get x :: Memory.readBytes m (x + 1) n

/-- `MemWrite(S+x, n, bs)`, n the length of bs. -/
def Memory.writeBytes : Memory → Nat → List Byte → Memory
  | m, _, [] => m
  | m, x, b :: bs => Memory.writeBytes (m.set x b) (x + 1) bs

/-- `MemFill(S+x, n, 0)`. -/
def Memory.zeroFill (m : Memory) (x n : Nat) : Memory := m.filter (fun c => c.1 < x || x + n ≤ c.1)

/-! ### Runs: how a phase step or a part of it ends (R200) -/

/-- A part of a phase step ends with a value, by `raise`, stuck in a call, or where the spec gives no
effect. -/
inductive Run (α : Type) where
  | value (a : α) (s : State)
  | raised (e : CcmError) (s : State)
  | stuck (s : State)
  | faulted (f : Fault)

/-- One part after another; the first that does not end with a value ends the step (R289). -/
def Run.bind {α β : Type} (r : Run α) (f : α → State → Run β) : Run β :=
  match r with
  | .value a s => f a s
  | .raised e s => .raised e s
  | .stuck s => .stuck s
  | .faulted x => .faulted x

/-- A pure function's result: a value, or a `raise`. -/
def Run.ofExcept {α : Type} (x : Except CcmError α) (s : State) : Run α :=
  match x with
  | .ok a => .value a s
  | .error e => .raised e s

/-- Go on only if an internal invariant holds; a violation, possible only in a corrupted state, is BadState
(R103 "internal invariant violation", R284; entry 9). -/
def Run.check {α : Type} (p : Prop) [Decidable p] (s : State) (r : Run α) : Run α :=
  if p then r else .raised .badState s

/-- An access to n bytes at offset x of a space lies inside it (R79); no bytes are no access (R11). -/
def Run.inSpace {α : Type} (s : State) (sp : Space) (x n : Nat) (r : Run α) : Run α :=
  Run.check (n = 0 ∨ x + n ≤ s.capacity sp) s r

/-- TAG_LEN fits a 16-byte tag register (R44 to R46). -/
def Run.tagFits {α : Type} (s : State) (r : Run α) : Run α := Run.check (s.host.tagLen.toNat ≤ 16) s r

/-- The failure entry `raise e` (R288): the first failure's code stays in ERR, PHASE goes to CLEANUP. -/
def State.failureEntry (e : CcmError) (s : State) : State :=
  { s with
    result := { s.result with err := s.result.err.or (some e) }
    ctl := { s.ctl with phase := .cleanup } }

/-- The return from a command, failed or not (R214, R291): BUSY falls, DONE rises, PHASE is IDLE. -/
def State.endCommand (s : State) : State :=
  { s with
    result := { s.result with busy := false, done := true }
    ctl := { s.ctl with phase := .idle } }

/-- The step is stuck: its call never returns (R219). -/
def State.hang (s : State) : State := { s with hung := true }

/-- `PHASE <- p` (R11). -/
def State.goto (p : Phase) (s : State) : State := { s with ctl := { s.ctl with phase := p } }

/-- A value returned to whoever asked (entry 6). -/
def State.respond (r : Resp) (s : State) : State := { s with env := { s.env with resp := r } }

/-- Putting events before the pending ones (entries 11 and 12). -/
def State.schedule (es : List Event) (s : State) : State :=
  { s with env := { s.env with events := es ++ s.env.events } }

/-- How a run ends as an outcome of the machine. -/
def Run.finish {α : Type} (r : Run α) (k : α → State → State) : Host.Outcome State Fault Refusal :=
  match r with
  | .value a s => .next (k a s)
  | .raised e s => .next (s.failureEntry e)
  | .stuck s => .next s.hang
  | .faulted f => .fault f

/-- A phase step: on its normal end it writes the successor phase (R200). -/
def Run.thenGoto {α : Type} (r : Run α) (p : Phase) : Host.Outcome State Fault Refusal :=
  r.finish (fun _ s => s.goto p)

/-- A function or call run on its own: on its normal end its value is returned (entry 7). -/
def Run.thenRespond {α : Type} (r : Run α) (f : α → Resp) : Host.Outcome State Fault Refusal :=
  r.finish (fun a s => s.respond (f a))

/-- `MemWrite(WBUF+x, n, bs)`, n the length of bs. -/
def State.writeWbuf (x : Nat) (bs : List Byte) (s : State) : State :=
  { s with work := { s.work with wbuf := s.work.wbuf.writeBytes x bs } }

/-- `MemFill(WBUF+x, n, 0)`. -/
def State.zeroWbuf (x n : Nat) (s : State) : State :=
  { s with work := { s.work with wbuf := s.work.wbuf.zeroFill x n } }

/-- `MemWrite(space+offset, 1, value)` on a space the host may write (R243). -/
def State.setHostByte (sp : Space) (offset : Nat) (value : Byte) (s : State) : State :=
  match sp with
  | .nonce => { s with host := { s.host with nonce := s.host.nonce.set offset value } }
  | .aad => { s with host := { s.host with aad := s.host.aad.set offset value } }
  | .inp => { s with host := { s.host with inp := s.host.inp.set offset value } }
  | .out => s
  | .wbuf => s

/-! ### Collaborator calls (R260 to R265) -/

/-- The answer to a call: the next recorded one, or the Engine's (entry 2). -/
def State.nextAnswer (s : State) (c : Call) : Answer :=
  match s.env.answers with
  | a :: _ => a
  | [] => Config.engine s.env.calls.length c

/-- The call has been issued and its answer taken. -/
def State.issue (c : Call) (s : State) : State :=
  { s with env := { s.env with calls := s.env.calls ++ [c], answers := s.env.answers.tail } }

/-- A call of R260 to R262: `fail` becomes `raise EngineFailure` (R264); no return is stuck (R219). -/
def State.request (s : State) (c : Call) : Run (Block × List Byte) :=
  match s.nextAnswer c with
  | .ok block data => .value (block, data) (s.issue c)
  | .fail => .raised .engineFailure (s.issue c)
  | .noReturn => .stuck (s.issue c)

/-! ### Commands (R101, R244 to R246) -/

/-- START(word) (R244). -/
def State.start (word : Word) (s : State) : State :=
  { s with
    ctl := { phase := .validateArgs, cmdLatch := word }
    result := { busy := true, done := false, rej := false, err := none, outLen := 0,
                out := s.result.out.zeroFill 0 s.cap }
    work := { s.work with keyUsed := false, verifyOk := false } }

/-- A dropped host write (R246, R247). -/
def State.reject (s : State) : State := { s with result := { s.result with rej := true } }

/-- A write of the CMD register (R101): dropped while BUSY, nothing without GO, else START. -/
def State.cmdWrite (word : Word) (s : State) : State :=
  if s.result.busy then s.reject
  else if word.getLsbD 0 then s.start word
  else s

end Sys2Proof.Machine
end

