-- ==== Sys2Proof/Machine/HostInterface.lean ====
section
/-! DEFINITION. The host interface (45_host_interface.md): CMD words, the four transactions, the two
pseudo-instructions, and the reset event (70_reset_and_hazards.md R311). -/

namespace Sys2Proof.Machine

/-- CCM_ENCRYPT (R244, R246). -/
def execCcmEncrypt (keep : Bool) (s : State) : Host.Outcome State Fault Refusal :=
  .next (s.cmdWrite (cmdWord 0 keep true true))

/-- CCM_DECRYPT (R244, R246). -/
def execCcmDecrypt (keep : Bool) (s : State) : Host.Outcome State Fault Refusal :=
  .next (s.cmdWrite (cmdWord 0 keep false true))

/-- NOP (R245, R246). -/
def execNop (ignored : BitVec 31) (s : State) : Host.Outcome State Fault Refusal :=
  .next (s.cmdWrite (ignored ++ BitVec.ofBool false))

/-- CMD_RESERVED (R252, R246): accepted, latched whole; VALIDATE_ARGS fails it. -/
def execCmdReserved (reserved : BitVec 29) (keep isEnc : Bool) (s : State) : Host.Outcome State Fault Refusal :=
  .next (s.cmdWrite (cmdWord reserved keep isEnc true))

/-- HWR (R241, R249, R251). -/
def State.hostWrite (reg value : Word) (s : State) : State :=
  if reg = 0 then s.cmdWrite value
  else if isHostReg reg then
    if s.result.busy then s.reject else { s with host := s.host.writeReg reg value }
  else s

/-- HRD (R242, R248, R249). -/
def State.hostRead (reg : Word) (s : State) : Word :=
  match reg.toNat with
  | 0 => 0
  | 1 => s.result.status
  | 8 => if s.result.busy then 0 else s.result.outLen
  | 9 => BitVec.ofNat 32 s.cap
  | _ => (s.host.readReg reg).getD 0

/-- HWRB (R243, R247, R250, R251), its tests in the rule's order. -/
def State.hostWriteByte (space : Nat) (offset : Word) (value : Byte) (s : State) : State :=
  match spaceOfSelector space with
  | none => s
  | some sp =>
    if s.capacity sp ≤ offset.toNat then s
    else if sp = .out then s
    else if s.result.busy then s.reject
    else s.setHostByte sp offset.toNat value

/-- HRDB (R243, R248, R250). -/
def State.hostReadByte (space : Nat) (offset : Word) (s : State) : Byte :=
  match spaceOfSelector space with
  | none => 0
  | some sp =>
    if s.capacity sp ≤ offset.toNat then 0
    else if sp = .out ∧ s.result.busy = true then 0
    else (s.space sp).get offset.toNat

/-- HWR (R241). -/
def execHwr (reg value : Word) (s : State) : Host.Outcome State Fault Refusal :=
  .next (s.hostWrite reg value)

/-- HRD (R242). -/
def execHrd (reg : Word) (s : State) : Host.Outcome State Fault Refusal :=
  .next (s.respond (.word (s.hostRead reg)))

/-- HWRB (R243). -/
def execHwrb (space : Nat) (offset : Word) (value : Byte) (s : State) : Host.Outcome State Fault Refusal :=
  .next (s.hostWriteByte space offset value)

/-- HRDB (R243). -/
def execHrdb (space : Nat) (offset : Word) (s : State) : Host.Outcome State Fault Refusal :=
  .next (s.respond (.byte (s.hostReadByte space offset)))

/-- POLL (R253): read STATUS, and again, after a turn of the Orchestrator (entry 11), while BUSY reads 1. -/
def execPoll (s : State) : Host.Outcome State Fault Refusal :=
  let t := s.respond (.word (s.hostRead 1))
  .next (if (s.hostRead 1).getLsbD 0 then t.schedule [.tick, .poll] else t)

/-- One byte write for each byte of a string, ascending offsets: the line `wrb` of R119. -/
def byteWrites (space : Nat) : Nat → List Byte → List Event
  | _, [] => []
  | off, b :: bs => .hwrb space (BitVec.ofNat 32 off) b :: byteWrites space (off + 1) bs

/-- The transactions `ccm_process` expands to (R255), the reads after the poll as one event (entry 12). -/
def ccmTransactions (cap : Nat) (a : CcmArgs) : List Event :=
  [.hwr 3 a.nonceLen, .hwr 4 a.tagLen, .hwr 5 (a.aadLen.setWidth 32), .hwr 6 (a.aadLen.extractLsb' 32 32),
   .hwr 7 a.inputLen]
  ++ byteWrites 0 0 (a.nonce.take (min a.nonceLen.toNat 13))
  ++ byteWrites 1 0 (a.aad.take (min a.aadLen.toNat cap))
  ++ byteWrites 2 0 (a.input.take (min a.inputLen.toNat cap))
  ++ [.hwr 0 (cmdWord 0 a.keepKey a.isEncrypt true), .poll, .ccmReturn]

/-- CCM_PROCESS (R255): the host issues its transactions next. -/
def execCcmProcess (a : CcmArgs) (s : State) : Host.Outcome State Fault Refusal :=
  .next (s.schedule (ccmTransactions s.cap a))

/-- `rdb OUT[0], n` (R119): n byte reads of OUT. -/
def State.readOut (s : State) (n : Nat) : List Byte :=
  (List.range n).map fun i => s.hostReadByte 3 (BitVec.ofNat 32 i)

/-- The last lines of `ccm_process` (R254, R255): `Err(code)`, or `Ok(OUT_LEN)` with the output bytes. -/
def State.ccmReturn (s : State) : State :=
  let code := (s.hostRead 1).extractLsb' 4 4
  if code ≠ 0 then s.respond (.ccmErr code)
  else s.respond (.ccmOk (s.hostRead 8) (s.readOut (s.hostRead 8).toNat))

/-- RESET (R311, R312): every piece of the block's state takes its reset value; no collaborator call is made;
the parameter and the environment stay (entry 15). -/
def execReset (s : State) : Host.Outcome State Fault Refusal :=
  .next { State.reset with capUnits := s.capUnits, env := s.env }

end Sys2Proof.Machine
end

