-- ==== Sys2Proof/Machine/Collaborator.lean ====
section
/-! DEFINITION. The four collaborator calls (46_collaborator_calls.md) with what the block does with the
answer, the stage-boundary check before two of them (R215), and each as an operation run on its own
(entry 7). -/

namespace Sys2Proof.Machine

/-- ecb_encrypt_block (R260): `in` is CTR, the answer goes to S0. -/
def requestEcb (s : State) : Run Unit :=
  (s.request (.ecbEncryptBlock s.host.keyCtx s.work.ctr)).bind fun r s =>
    .value () { s with work := { s.work with s0 := r.1 } }

/-- ctr_encrypt over `WBUF[off, off+len)` (R261): the length must be a multiple of 16 (R215); the answer goes
back over the same range (R88), brought to len bytes (entry 10), and to CTR. -/
def requestCtr (off len : Word) (s : State) : Run Unit :=
  if len.toNat % 16 ≠ 0 then .raised .badState s
  else Run.inSpace s .wbuf off.toNat len.toNat <|
    (s.request (.ctrEncrypt s.host.keyCtx s.work.ctr (s.work.wbuf.readBytes off.toNat len.toNat) len)).bind fun r s =>
      .value () { s with work := { s.work with
        wbuf := s.work.wbuf.writeBytes off.toNat (fitBytes len.toNat r.2)
        ctr := r.1 } }

/-- cbc_mac over `WBUF[0, len)` (R262): the length must be a multiple of 16 and at least 16 (R215). -/
def requestMac (len : Word) (s : State) : Run Block :=
  if len.toNat % 16 ≠ 0 ∨ len.toNat < 16 then .raised .badState s
  else Run.inSpace s .wbuf 0 len.toNat <|
    (s.request (.cbcMac s.host.keyCtx (s.work.wbuf.readBytes 0 len.toNat) len)).bind fun r s => .value r.1 s

/-- keyslot_erase (R263): a failure is recorded in ERR if no error stands, and raises nothing. -/
def requestErase (s : State) : Run Unit :=
  match s.nextAnswer (.keyslotErase s.host.keyCtx) with
  | .ok _ _ => .value () (s.issue (.keyslotErase s.host.keyCtx))
  | .fail =>
    .value () { s.issue (.keyslotErase s.host.keyCtx) with
      result := { s.result with err := s.result.err.or (some .engineFailure) } }
  | .noReturn => .stuck (s.issue (.keyslotErase s.host.keyCtx))

/-- ecb_encrypt_block (R260). -/
def execEcbEncryptBlock (s : State) : Host.Outcome State Fault Refusal :=
  (requestEcb s).finish (fun _ s => s)

/-- ctr_encrypt (R261); a call of length 0 is never issued (R191), so it has no effect to give (entry 8). -/
def execCtrEncrypt (off len : Word) (s : State) : Host.Outcome State Fault Refusal :=
  if len = 0 then .fault (.outsideDomain "ctr_encrypt") else (requestCtr off len s).finish (fun _ s => s)

/-- cbc_mac (R262). -/
def execCbcMac (len : Word) (s : State) : Host.Outcome State Fault Refusal :=
  (requestMac len s).thenRespond (fun b => .bytes b.toList)

/-- keyslot_erase (R263). -/
def execKeyslotErase (s : State) : Host.Outcome State Fault Refusal :=
  (requestErase s).finish (fun _ s => s)

end Sys2Proof.Machine
end

