-- ==== Sys2Proof/Machine/Cipher.lean ====
section
/-! DEFINITION. The Payload Cipher Step (43_payload_cipher.md). -/

namespace Sys2Proof.Machine

/-- CIPHER_PAYLOAD(off, len) (R190): nothing for a length of 0 (R191), else one ctr_encrypt call, with the
stage-boundary check before it. -/
def cipherRegion (off len : Word) (s : State) : Run Unit :=
  if len = 0 then .value () s else requestCtr off len s

/-- CIPHER_PAYLOAD.fn (R190). -/
def execCipherPayloadFn (off len : Word) (s : State) : Host.Outcome State Fault Refusal :=
  (cipherRegion off len s).finish (fun _ s => s)

end Sys2Proof.Machine
end

