-- ==== Sys2Proof/Machine/Framing.lean ====
section
/-! DEFINITION. The Framing Encoder (40_framing_encoder.md) and the checked arithmetic of R11: pure
functions, and each as an operation run on its own (entry 7): its value is returned, its `raise` is the
failure entry. -/

namespace Sys2Proof.Machine

/-- LEN_FITS(q, payload_len) (R145): a q-byte field can hold the length. -/
def lengthFits (q : Nat) (payloadLen : Word) : Bool := payloadLen.toNat < 256 ^ q

/-- ENC_B0_FLAGS (R140, layout R107), its three tests in the rule's order. -/
def encodeB0Flags (nonceLen tagLen : Word) (aadPresent : Bool) (payloadLen : Word) : Except CcmError Byte :=
  if legalTagLen tagLen = false then .error .invalidArgument
  else if legalNonceLen nonceLen = false then .error .invalidArgument
  else if lengthFits (15 - nonceLen.toNat) payloadLen = false then .error .badLength
  else .ok (BitVec.ofNat 8 (64 * aadPresent.toNat + 8 * ((tagLen.toNat - 2) / 2) + (14 - nonceLen.toNat)))

/-- ENC_B0 (R141, layout R106). -/
def encodeB0 (nonce : NonceBytes) (nonceLen tagLen : Word) (aadLen : Long) (payloadLen : Word) :
    Except CcmError Block := do
  let f ← encodeB0Flags nonceLen tagLen (aadLen != 0) payloadLen
  return fit 16 (f :: nonce.toList.take nonceLen.toNat ++ be payloadLen.toNat (15 - nonceLen.toNat))

/-- ENC_CTR0_FLAGS (R142); `none` outside its domain 7 to 13. -/
def encodeCtr0Flags (nonceLen : Word) : Option Byte :=
  if legalNonceLen nonceLen then some (BitVec.ofNat 8 (14 - nonceLen.toNat)) else none

/-- CTR_M (R146, layout R109): the m-th counter block; `none` outside the domain. -/
def encodeCtrM (nonce : NonceBytes) (nonceLen : Word) (m : Nat) : Option Block :=
  match encodeCtr0Flags nonceLen with
  | some f =>
    if m < 256 ^ (15 - nonceLen.toNat) then
      some (fit 16 (f :: nonce.toList.take nonceLen.toNat ++ be m (15 - nonceLen.toNat)))
    else none
  | none => none

/-- ENC_CTR0 (R143, layout R109): the counter field is q zero bytes. -/
def encodeCtr0 (nonce : NonceBytes) (nonceLen : Word) : Option Block :=
  match encodeCtr0Flags nonceLen with
  | some f => some (fit 16 (f :: nonce.toList.take nonceLen.toNat ++ List.replicate (15 - nonceLen.toNat) 0))
  | none => none

/-- ENC_AAD_LEN (R144, R111): the prefix and its byte count. -/
def encodeAadLen (aadLen : Long) : List Byte × Nat :=
  if aadLen = 0 then ([], 0)
  else if aadLen.toNat < 2 ^ 16 - 2 ^ 8 then (be aadLen.toNat 2, 2)
  else if aadLen.toNat < 2 ^ 32 then ([0xFF, 0xFE] ++ be aadLen.toNat 4, 6)
  else ([0xFF, 0xFF] ++ be aadLen.toNat 8, 10)

/-- A function's value, or the fault of operands outside its domain (entry 8). -/
def Run.ofOption {α : Type} (mnemonic : String) (x : Option α) (s : State) : Run α :=
  match x with
  | some a => .value a s
  | none => .faulted (.outsideDomain mnemonic)

/-- cadd32 (R11). -/
def execCadd32 (a b : Word) (s : State) : Host.Outcome State Fault Refusal :=
  (Run.ofExcept (addChecked a b) s).thenRespond .word

/-- ceil16 (R11). -/
def execCeil16 (x : Word) (s : State) : Host.Outcome State Fault Refusal :=
  (Run.ofExcept (roundUp16 x) s).thenRespond .word

/-- ENC_B0_FLAGS (R140). -/
def execEncB0Flags (nonceLen tagLen : Word) (aadPresent : Bool) (payloadLen : Word) (s : State) :
    Host.Outcome State Fault Refusal :=
  (Run.ofExcept (encodeB0Flags nonceLen tagLen aadPresent payloadLen) s).thenRespond .byte

/-- ENC_B0 (R141). -/
def execEncB0 (nonce : NonceBytes) (nonceLen tagLen : Word) (aadLen : Long) (payloadLen : Word) (s : State) :
    Host.Outcome State Fault Refusal :=
  (Run.ofExcept (encodeB0 nonce nonceLen tagLen aadLen payloadLen) s).thenRespond (fun b => .bytes b.toList)

/-- ENC_CTR0_FLAGS (R142). -/
def execEncCtr0Flags (nonceLen : Word) (s : State) : Host.Outcome State Fault Refusal :=
  (Run.ofOption "ENC_CTR0_FLAGS" (encodeCtr0Flags nonceLen) s).thenRespond .byte

/-- ENC_CTR0 (R143). -/
def execEncCtr0 (nonce : NonceBytes) (nonceLen : Word) (s : State) : Host.Outcome State Fault Refusal :=
  (Run.ofOption "ENC_CTR0" (encodeCtr0 nonce nonceLen) s).thenRespond (fun b => .bytes b.toList)

/-- ENC_AAD_LEN (R144). -/
def execEncAadLen (aadLen : Long) (s : State) : Host.Outcome State Fault Refusal :=
  .next (s.respond (.aadPrefix (encodeAadLen aadLen).1 (encodeAadLen aadLen).2))

/-- LEN_FITS (R145). -/
def execLenFits (q : Nat) (payloadLen : Word) (s : State) : Host.Outcome State Fault Refusal :=
  .next (s.respond (.bit (lengthFits q payloadLen)))

/-- CTR_M (R146). -/
def execCtrM (nonce : NonceBytes) (nonceLen : Word) (m : Nat) (s : State) : Host.Outcome State Fault Refusal :=
  (Run.ofOption "CTR_M" (encodeCtrM nonce nonceLen m) s).thenRespond (fun b => .bytes b.toList)

end Sys2Proof.Machine
end

