-- ==== Sys2Proof/Machine/Composer.lean ====
section
/-! DEFINITION. The Work-Buffer Composer (41_workbuffer_composer.md): COMPOSE and its five steps. -/

namespace Sys2Proof.Machine

/-- The 13 bytes of the NONCE space, `MemRead(NONCE+0, 13)`. -/
def State.nonceBytes (s : State) : NonceBytes := fit 13 (s.host.nonce.readBytes 0 13)

/-- Step 1 (R161): B0 at offset 0, over the true payload length PLEN. -/
def composeB0 (s : State) : Run Unit :=
  (Run.ofExcept (encodeB0 s.nonceBytes s.host.nonceLen s.host.tagLen s.host.aadLen s.work.plen) s).bind fun b0 s =>
    .value () (s.writeWbuf 0 b0.toList)

/-- The end of prefix and AAD, and its padded boundary (R162). -/
def aadRegionEnd (aadLen : Long) : Except CcmError (Word × Word) := do
  let a ← addChecked 16 (BitVec.ofNat 32 (encodeAadLen aadLen).2)
  let e ← addChecked a (aadLen.setWidth 32)
  let pe ← roundUp16 e
  return (e, pe)

/-- Step 2 (R162): the AAD region; both TooBig tests come before any byte is written. -/
def composeAad (s : State) : Run Unit :=
  if s.host.aadLen = 0 then .value () { s with work := { s.work with aadPaddedLen := 0 } }
  else if s.cap ≤ s.host.aadLen.toNat then .raised .tooBig s
  else
    (Run.ofExcept (aadRegionEnd s.host.aadLen) s).bind fun r s =>
      if s.cap < r.2.toNat then .raised .tooBig s
      else
        let pfx := (encodeAadLen s.host.aadLen).1
        let t := s.writeWbuf 16 (pfx ++ s.host.aad.readBytes 0 s.host.aadLen.toNat)
        let u := t.zeroWbuf r.1.toNat (r.2.toNat - r.1.toNat)
        .value () { u with work := { u.work with aadPaddedLen := r.2 - 16 } }

/-- PAYLOAD_OFFSET, PPAD and WBUF_LEN written together (R163, R164). -/
def State.setLayout (offset padded total : Word) (s : State) : State :=
  { s with work := { s.work with payloadOffset := offset, ppad := padded, wbufLen := total } }

/-- `po`, `pp` and `pe` of R163. -/
def encryptLayout (w : Working) : Except CcmError (Word × Word × Word) := do
  let po ← addChecked 16 w.aadPaddedLen
  let pp ← roundUp16 w.plen
  let pe ← addChecked po pp
  return (po, pp, pe)

/-- Step 3 on encrypt (R163): the payload, zero-padded to 16 bytes. -/
def composePlaintext (s : State) : Run Unit :=
  (Run.ofExcept (encryptLayout s.work) s).bind fun r s =>
    if s.cap < r.2.2.toNat then .raised .tooBig s
    else
      let pend := r.1.toNat + s.work.plen.toNat
      let t := s.writeWbuf r.1.toNat (s.host.inp.readBytes 0 s.work.plen.toNat)
      .value () ((t.zeroWbuf pend (r.2.2.toNat - pend)).setLayout r.1 r.2.1 r.2.2)

/-- `po` and `pend` of R164. -/
def decryptLayout (w : Working) (inputLen : Word) : Except CcmError (Word × Word) := do
  let po ← addChecked 16 w.aadPaddedLen
  let pend ← addChecked po inputLen
  return (po, pend)

/-- `pp` and `fe` of R164. -/
def decryptFrameEnd (plen po : Word) : Except CcmError (Word × Word) := do
  let pp ← roundUp16 plen
  let fe ← addChecked po pp
  return (pp, fe)

/-- Step 3 on decrypt (R164): ciphertext and masked tag, unpadded; two TooBig tests. -/
def composeCiphertext (s : State) : Run Unit :=
  (Run.ofExcept (decryptLayout s.work s.host.inputLen) s).bind fun r s =>
    if s.cap < r.2.toNat then .raised .tooBig s
    else
      (Run.ofExcept (decryptFrameEnd s.work.plen r.1) s).bind fun f s =>
        if s.cap < f.2.toNat then .raised .tooBig s
        else
          .value () ((s.writeWbuf r.1.toNat (s.host.inp.readBytes 0 s.host.inputLen.toNat)).setLayout r.1 f.1 r.2)

/-- CTR0 in CTR, and KEY_USED set before the first call (R165, R34). -/
def State.startKeyUse (ctr0 : Block) (s : State) : State :=
  { s with work := { s.work with ctr := ctr0, keyUsed := true } }

/-- `CTR[15] <- 0x01`: CTR is now CTR1 (R165). -/
def State.advanceCtr (s : State) : State := { s with work := { s.work with ctr := s.work.ctr.set 15 1 } }

/-- Step 4 (R165): CTR0, S0 = E(CTR0), CTR1. -/
def composeCounter (s : State) : Run Unit :=
  (Run.ofOption "ENC_CTR0" (encodeCtr0 s.nonceBytes s.host.nonceLen) s).bind fun ctr0 s =>
    (requestEcb (s.startKeyUse ctr0)).bind fun _ s => .value () s.advanceCtr

/-- COMPOSE (R160): the steps in order; step 5 (R166) leaves everything where it is. -/
def composeSteps (s : State) : Run Unit :=
  (composeB0 s).bind fun _ s =>
  (composeAad s).bind fun _ s =>
  (if s.isEnc then composePlaintext s else composeCiphertext s).bind fun _ s =>
  composeCounter s

/-- COMPOSE run on its own (R160): its results are the registers and WBUF (R166). -/
def execCompose (s : State) : Host.Outcome State Fault Refusal :=
  (composeSteps s).finish (fun _ s => s)

end Sys2Proof.Machine
end

