-- ==== Sys2Proof/Machine/Tag.lean ====
section
/-! DEFINITION. The Tag Engine (42_tag_engine.md): COMPUTE_TAG, XOR_MASK and the constant-time VERIFY. -/

namespace Sys2Proof.Machine

/-- COMPUTE_TAG(data_len) (R180): the first TAG_LEN bytes of the MAC over the frame (R181). -/
def computeTag (dataLen : Word) (s : State) : Run (List Byte) :=
  (requestMac dataLen s).bind fun mac s => Run.tagFits s (.value (mac.toList.take s.host.tagLen.toNat) s)

/-- XOR_MASK(tag, S0, tag_len) (R182). -/
def xorMask (tag : List Byte) (s0 : Block) (n : Nat) : List Byte :=
  (List.range n).map fun i => tag.getD i 0 ^^^ s0.toList.getD i 0

/-- The OR-fold of VERIFY over every byte, whatever it already holds (R183, R184). -/
def tagDifference (cand exp : List Byte) (n : Nat) : Byte :=
  (List.range n).foldl (fun d i => d ||| (cand.getD i 0 ^^^ exp.getD i 0)) 0

/-- VERIFY(cand, exp, tag_len) (R183). -/
def verifyTags (cand exp : List Byte) (n : Nat) : Bool := tagDifference cand exp n == 0

/-- COMPUTE_TAG (R180). -/
def execComputeTag (dataLen : Word) (s : State) : Host.Outcome State Fault Refusal :=
  (computeTag dataLen s).thenRespond .bytes

/-- XOR_MASK (R182), on a tag of tag_len bytes, at most 16. -/
def execXorMask (tag : List Byte) (s0 : Block) (tagLen : Word) (s : State) : Host.Outcome State Fault Refusal :=
  (Run.ofOption "XOR_MASK"
    (if tag.length = tagLen.toNat ∧ tagLen.toNat ≤ 16 then some (xorMask tag s0 tagLen.toNat) else none) s).thenRespond
    .bytes

/-- VERIFY (R183), on two strings of tag_len bytes. -/
def execVerify (cand exp : List Byte) (tagLen : Word) (s : State) : Host.Outcome State Fault Refusal :=
  (Run.ofOption "VERIFY"
    (if cand.length = tagLen.toNat ∧ exp.length = tagLen.toNat then some (verifyTags cand exp tagLen.toNat) else none)
    s).thenRespond .bit

end Sys2Proof.Machine
end

