-- ==== Sys2Proof/Machine/Phases.lean ====
section
/-! DEFINITION. The Orchestrator's phase steps (44_orchestrator.md). -/

namespace Sys2Proof.Machine

/-- IDLE (R218): no step is taken. -/
def execIdle (s : State) : Host.Outcome State Fault Refusal := .next s

/-- The true payload length of the command (R26, R37, R201). -/
def State.payloadLen (s : State) : Word :=
  if s.isEnc then s.host.inputLen else s.host.inputLen - s.host.tagLen

/-- The tests of VALIDATE_ARGS in the rule's order (R201, R290), then Q and PLEN. -/
def checkArgs (s : State) : Run Unit :=
  if reservedBitsSet s.ctl.cmdLatch then .raised .invalidArgument s
  else if legalTagLen s.host.tagLen = false then .raised .invalidArgument s
  else if legalNonceLen s.host.nonceLen = false then .raised .invalidArgument s
  else if s.isEnc = false ∧ s.host.inputLen.toNat < s.host.tagLen.toNat then .raised .invalidArgument s
  else if lengthFits (15 - s.host.nonceLen.toNat) s.payloadLen = false then .raised .badLength s
  else .value () { s with work := { s.work with q := BitVec.ofNat 4 (15 - s.host.nonceLen.toNat), plen := s.payloadLen } }

/-- VALIDATE_ARGS (R201). -/
def execValidateArgs (s : State) : Host.Outcome State Fault Refusal :=
  (checkArgs s).thenGoto .composeFrame

/-- COMPOSE_FRAME (R202). -/
def execComposeFrame (s : State) : Host.Outcome State Fault Refusal :=
  (composeSteps s).thenGoto .tagPrepare

/-- RAW_TAG takes a tag of TAG_LEN bytes, its other bytes zero (R44). -/
def State.setRawTag (t : List Byte) (s : State) : State := { s with work := { s.work with rawTag := fit 16 t } }

/-- TAG_PREPARE, encrypt arm (R204): the raw tag over the cleartext frame. -/
def execTagPrepareEnc (s : State) : Host.Outcome State Fault Refusal :=
  ((computeTag s.work.wbufLen s).bind fun t s => .value () (s.setRawTag t)).thenGoto .cipherPayload

/-- The start of the masked tag in WBUF, `PAYLOAD_OFFSET + PLEN` (R205, R208). -/
def State.tagPos (s : State) : Nat := s.work.payloadOffset.toNat + s.work.plen.toNat

/-- The candidate tag unmasked, its bytes in WBUF zeroed (R205). -/
def State.takeCandidate (s : State) : State :=
  { s with work := { s.work with
    candTag := fit 16 (xorMask (s.work.wbuf.readBytes s.tagPos s.host.tagLen.toNat) s.work.s0 s.host.tagLen.toNat)
    wbuf := s.work.wbuf.zeroFill s.tagPos s.host.tagLen.toNat } }

/-- `WBUF_LEN <- PAYLOAD_OFFSET + PPAD` (R205): no access to WBUF, but a sum that must not overflow (R12). -/
def closeFrame (s : State) : Run Unit :=
  Run.check (s.work.payloadOffset.toNat + s.work.ppad.toNat < 2 ^ 32) s <|
    .value () { s with work := { s.work with wbufLen := s.work.payloadOffset + s.work.ppad } }

/-- TAG_PREPARE's work on decrypt (R205). -/
def unmaskCandidate (s : State) : Run Unit :=
  Run.tagFits s <| Run.inSpace s .wbuf s.tagPos s.host.tagLen.toNat <| closeFrame s.takeCandidate

/-- TAG_PREPARE, decrypt arm (R205). -/
def execTagPrepareDec (s : State) : Host.Outcome State Fault Refusal :=
  (unmaskCandidate s).thenGoto .cipherPayload

/-- CIPHER_PAYLOAD, the phase (R206). -/
def execCipherPayload (s : State) : Host.Outcome State Fault Refusal :=
  (cipherRegion s.work.payloadOffset s.work.ppad s).thenGoto (if s.isEnc then .tagFinalize else .tagVerify)

/-- TAG_FINALIZE (R207): the masked tag in MTAG. -/
def execTagFinalize (s : State) : Host.Outcome State Fault Refusal :=
  (Run.tagFits s <| .value () { s with work := { s.work with
    mtag := fit 16 (xorMask (s.work.rawTag.toList.take s.host.tagLen.toNat) s.work.s0 s.host.tagLen.toNat) } }).thenGoto
    .emitResult

/-- The end of TAG_VERIFY (R208): RAW_TAG and VERIFY_OK written, then the raise on a mismatch. -/
def settleTag (t : List Byte) (s : State) : Run Unit :=
  let ok := verifyTags (s.work.candTag.toList.take s.host.tagLen.toNat) t s.host.tagLen.toNat
  let u := s.setRawTag t
  let v := { u with work := { u.work with verifyOk := ok } }
  if ok then .value () v else .raised .authenticationFailed v

/-- TAG_VERIFY's work (R208): re-zero the padding, recompute the tag, compare. -/
def checkTag (s : State) : Run Unit :=
  Run.check (s.work.plen.toNat ≤ s.work.ppad.toNat) s <|
  Run.inSpace s .wbuf s.tagPos (s.work.ppad.toNat - s.work.plen.toNat) <|
    (computeTag s.work.wbufLen (s.zeroWbuf s.tagPos (s.work.ppad.toNat - s.work.plen.toNat))).bind settleTag

/-- TAG_VERIFY (R208). -/
def execTagVerify (s : State) : Host.Outcome State Fault Refusal :=
  (checkTag s).thenGoto .emitResult

/-- Writing the result to OUT and its length to OUT_LEN (R209, R210). -/
def State.emit (bs : List Byte) (len : Word) (s : State) : State :=
  { s with result := { s.result with out := s.result.out.writeBytes 0 bs, outLen := len } }

/-- The first PLEN bytes of the payload region. -/
def State.payloadBytes (s : State) : List Byte :=
  s.work.wbuf.readBytes s.work.payloadOffset.toNat s.work.plen.toNat

/-- EMIT_RESULT, encrypt arm (R209): ciphertext and masked tag. -/
def execEmitResultEnc (s : State) : Host.Outcome State Fault Refusal :=
  (Run.tagFits s <|
   Run.inSpace s .wbuf s.work.payloadOffset.toNat s.work.plen.toNat <|
   Run.inSpace s .out 0 (s.work.plen.toNat + s.host.tagLen.toNat) <|
    .value () (s.emit (s.payloadBytes ++ s.work.mtag.toList.take s.host.tagLen.toNat)
      (s.work.plen + s.host.tagLen))).thenGoto .cleanup

/-- EMIT_RESULT, decrypt arm (R210): the verified plaintext. -/
def execEmitResultDec (s : State) : Host.Outcome State Fault Refusal :=
  (Run.inSpace s .wbuf s.work.payloadOffset.toNat s.work.plen.toNat <|
   Run.inSpace s .out 0 s.work.plen.toNat <|
    .value () (s.emit s.payloadBytes s.work.plen)).thenGoto .cleanup

/-- CLEANUP part 1 (R211): the key is erased if it was used and is not to be kept. -/
def releaseKey (s : State) : Run Unit :=
  if s.work.keyUsed = true ∧ s.keepKey = false then requestErase s else .value () s

/-- CLEANUP part 2 (R212): zeroization, unconditional. -/
def State.zeroize (s : State) : State :=
  { s with
    work := { Working.zero with wbuf := s.work.wbuf.zeroFill 0 s.cap }
    ctl := { s.ctl with cmdLatch := 0 } }

/-- CLEANUP part 3 (R213): on failure the output is withdrawn. -/
def State.withdrawOnError (s : State) : State :=
  if s.result.err = none then s
  else { s with result := { s.result with out := s.result.out.zeroFill 0 s.cap, outLen := 0 } }

/-- CLEANUP (R211 to R214), its four parts in order. -/
def execCleanup (s : State) : Host.Outcome State Fault Refusal :=
  (releaseKey s).finish (fun _ s => s.zeroize.withdrawOnError.endCommand)

end Sys2Proof.Machine
end

