-- ==== Sys2Proof/Machine/Dispatch.lean ====
section
/-! DEFINITION. The meaning of every operation: one arm per constructor of `Instr`. -/

namespace Sys2Proof.Machine

def exec (i : Instr) (s : State) : Host.Outcome State Fault Refusal :=
  match i with
  | .ccmEncrypt keep => Sys2Proof.Machine.execCcmEncrypt keep s
  | .ccmDecrypt keep => Sys2Proof.Machine.execCcmDecrypt keep s
  | .nop ignored => Sys2Proof.Machine.execNop ignored s
  | .cmdReserved reserved keep isEnc => Sys2Proof.Machine.execCmdReserved reserved keep isEnc s
  | .idle => Sys2Proof.Machine.execIdle s
  | .validateArgs => Sys2Proof.Machine.execValidateArgs s
  | .composeFrame => Sys2Proof.Machine.execComposeFrame s
  | .tagPrepareEnc => Sys2Proof.Machine.execTagPrepareEnc s
  | .tagPrepareDec => Sys2Proof.Machine.execTagPrepareDec s
  | .cipherPayload => Sys2Proof.Machine.execCipherPayload s
  | .tagFinalize => Sys2Proof.Machine.execTagFinalize s
  | .tagVerify => Sys2Proof.Machine.execTagVerify s
  | .emitResultEnc => Sys2Proof.Machine.execEmitResultEnc s
  | .emitResultDec => Sys2Proof.Machine.execEmitResultDec s
  | .cleanup => Sys2Proof.Machine.execCleanup s
  | .hwr reg value => Sys2Proof.Machine.execHwr reg value s
  | .hrd reg => Sys2Proof.Machine.execHrd reg s
  | .hwrb space offset value => Sys2Proof.Machine.execHwrb space offset value s
  | .hrdb space offset => Sys2Proof.Machine.execHrdb space offset s
  | .poll => Sys2Proof.Machine.execPoll s
  | .ccmProcess args => Sys2Proof.Machine.execCcmProcess args s
  | .cadd32 a b => Sys2Proof.Machine.execCadd32 a b s
  | .ceil16 x => Sys2Proof.Machine.execCeil16 x s
  | .encB0Flags nonceLen tagLen aadPresent payloadLen => Sys2Proof.Machine.execEncB0Flags nonceLen tagLen aadPresent payloadLen s
  | .encB0 nonce nonceLen tagLen aadLen payloadLen => Sys2Proof.Machine.execEncB0 nonce nonceLen tagLen aadLen payloadLen s
  | .encCtr0Flags nonceLen => Sys2Proof.Machine.execEncCtr0Flags nonceLen s
  | .encCtr0 nonce nonceLen => Sys2Proof.Machine.execEncCtr0 nonce nonceLen s
  | .encAadLen aadLen => Sys2Proof.Machine.execEncAadLen aadLen s
  | .lenFits q payloadLen => Sys2Proof.Machine.execLenFits q payloadLen s
  | .ctrM nonce nonceLen m => Sys2Proof.Machine.execCtrM nonce nonceLen m s
  | .compose => Sys2Proof.Machine.execCompose s
  | .computeTag dataLen => Sys2Proof.Machine.execComputeTag dataLen s
  | .xorMask tag s0 tagLen => Sys2Proof.Machine.execXorMask tag s0 tagLen s
  | .verify cand exp tagLen => Sys2Proof.Machine.execVerify cand exp tagLen s
  | .cipherPayloadFn off len => Sys2Proof.Machine.execCipherPayloadFn off len s
  | .ecbEncryptBlock => Sys2Proof.Machine.execEcbEncryptBlock s
  | .ctrEncrypt off len => Sys2Proof.Machine.execCtrEncrypt off len s
  | .cbcMac len => Sys2Proof.Machine.execCbcMac len s
  | .keyslotErase => Sys2Proof.Machine.execKeyslotErase s
  | .reset => Sys2Proof.Machine.execReset s

end Sys2Proof.Machine
end

