-- ==== Sys2Proof/Machine/Fetch.lean ====
section
/-! DEFINITION. Which event happens next and what selects the operation it runs (R120, R200, R240; entries 1, 13,
14, 16). -/

namespace Sys2Proof.Machine

/-- The event that happens next: the oldest pending one, or the Orchestrator's turn where none is pending. -/
def State.nextEvent (s : State) : Event :=
  match s.env.events with
  | [] => .tick
  | e :: _ => e

/-- The state with that event taken. -/
def State.takeEvent (s : State) : State := { s with env := { s.env with events := s.env.events.tail } }

/-- What the Orchestrator's turn runs: the operation PHASE selects, with IS_ENC (R120). -/
def State.phaseSelector (s : State) : Selector := .phase s.ctl.phase.code s.isEnc

/-- The selector of an event: PHASE with IS_ENC for the Orchestrator's turn, else the event itself. -/
def State.selector (e : Event) (s : State) : Selector :=
  match e with
  | .tick => s.phaseSelector
  | e => .event e

/-- Putting a selector where the very next step takes it. -/
def State.withSelector (s : State) : Selector → State
  | .event e => s.schedule [e]
  | .phase code isEnc =>
    match Phase.ofCode code with
    | some p =>
      { s.schedule [.tick] with
        hung := false
        ctl := { phase := p, cmdLatch := s.ctl.cmdLatch &&& 0xFFFFFFFD#32 ||| (if isEnc then 2#32 else 0#32) } }
    | none => s

/-- A word of the opcode table put where the next step takes it; a word that is none leaves the state. -/
def State.withTableWord (s : State) (nbits w : Nat) : State :=
  match selectorOfTableWord nbits w with
  | some c => s.withSelector c
  | none => s

end Sys2Proof.Machine
end

