-- ==== Sys2Proof/Machine/Step.lean ====
section
/-! DEFINITION. One step of the machine: one atomic event (R81, R240, R310). -/

namespace Sys2Proof.Machine

/-- The operation a selector names, run; a selector that names none is refused. -/
def runSelector (c : Selector) (s : State) : Host.Outcome State Fault Refusal :=
  match decode c with
  | .ok i => exec i s
  | .error r => .refused (.undecodable r)

/-- One event. The Orchestrator takes no step while its last one is stuck (R219). -/
def runEvent (e : Event) (s : State) : Host.Outcome State Fault Refusal :=
  match e with
  | .tick => if s.hung then .next s else runSelector (s.selector .tick) s
  | .ccmReturn => .next s.ccmReturn
  | e => runSelector (s.selector e) s

/-- One step: the next event is taken and run. -/
def step (s : State) : Host.Outcome State Fault Refusal := runEvent s.nextEvent s.takeEvent

/-- A word of spec/opcode_table.json placed so that the next step runs its operation (entry 13). -/
def State.withFetchWord (s : State) (nbits w : Nat) : State := s.withTableWord nbits w

end Sys2Proof.Machine
end

