-- ==== Sys2Proof/Machine/Reference.lean ====
section
/-! DEFINITION. The reference contracts of the collaborator over a block function E (R260 to R263, R267), and
the wire format they give (R113, R115). Nothing in the machine uses them: the block does not check the
contract (R264); statements about the wire format do. -/

namespace Sys2Proof.Machine

/-- Two byte strings combined byte by byte. -/
def xorBytes (a b : List Byte) : List Byte := List.zipWith (· ^^^ ·) a b

/-- A byte string read as a big-endian integer (R72). -/
def beValue (bs : List Byte) : Nat := bs.foldl (fun n b => 256 * n + b.toNat) 0

/-- The next counter block: the 16-byte string plus one as a big-endian integer (R261). -/
def nextCounter (c : Block) : Block := fit 16 (be (beValue c.toList + 1) 16)

/-- ctr_encrypt over n blocks (R261): the output bytes and the advanced counter. -/
def referenceCtr (E : Block → Block) : Nat → Block → List Byte → List Byte × Block
  | 0, c, _ => ([], c)
  | n + 1, c, buf =>
    let r := referenceCtr E n (nextCounter c) (buf.drop 16)
    (xorBytes (buf.take 16) (E c).toList ++ r.1, r.2)

/-- cbc_mac over n blocks from a chaining value (R262): every block enciphered, the last included. -/
def referenceCbc (E : Block → Block) : Nat → Block → List Byte → Block
  | 0, y, _ => y
  | n + 1, y, buf => referenceCbc E n (E (fit 16 (xorBytes y.toList (buf.take 16)))) (buf.drop 16)

/-- The answer the reference contracts give to a call (R260 to R263). -/
def referenceAnswer (E : Block → Block) : Call → Answer
  | .ecbEncryptBlock _ b => .ok (E b) []
  | .ctrEncrypt _ c buf len =>
    .ok (referenceCtr E (len.toNat / 16) c buf).2 (referenceCtr E (len.toNat / 16) c buf).1
  | .cbcMac _ buf len => .ok (referenceCbc E (len.toNat / 16) Block.zero buf) []
  | .keyslotErase _ => .ok Block.zero []

/-- A byte string zero-padded to a multiple of 16 bytes. -/
def padTo16 (bs : List Byte) : List Byte := bs ++ List.replicate ((16 - bs.length % 16) % 16) 0

/-- What a command's message is made of: nonce, nonce length, tag length, associated data, payload. -/
structure Message where
  nonce    : NonceBytes
  nonceLen : Word
  tagLen   : Word
  aad      : List Byte
  payload  : List Byte
deriving DecidableEq, Repr

/-- B0 of a message (R106), `none` where ENC_B0 fails. -/
def Message.b0 (m : Message) : Option Block :=
  (encodeB0 m.nonce m.nonceLen m.tagLen (BitVec.ofNat 64 m.aad.length) (BitVec.ofNat 32 m.payload.length)).toOption

/-- The AAD region of the frame (R113): prefix and AAD, zero-padded; empty without AAD. -/
def Message.aadRegion (m : Message) : List Byte :=
  padTo16 ((encodeAadLen (BitVec.ofNat 64 m.aad.length)).1 ++ m.aad)

/-- B0 and the AAD region, the part of the frame before the payload (R113). -/
def Message.header (m : Message) : List Byte := (m.b0.getD Block.zero).toList ++ m.aadRegion

/-- The frame the MAC covers (R113): B0, the AAD region, the padded payload. -/
def Message.frame (m : Message) : List Byte := m.header ++ padTo16 m.payload

/-- The counter block CTRk of a message (R109). -/
def Message.ctr (m : Message) (k : Nat) : Block := (encodeCtrM m.nonce m.nonceLen k).getD Block.zero

/-- The ciphertext of a message: CTR mode from CTR1, the first n bytes (R115). -/
def Message.ciphertext (E : Block → Block) (m : Message) : List Byte :=
  (referenceCtr E ((padTo16 m.payload).length / 16) (m.ctr 1) (padTo16 m.payload)).1.take m.payload.length

/-- The processed tag of a message (R117): the raw tag over the cleartext frame, masked with S0. -/
def Message.maskedTag (E : Block → Block) (m : Message) : List Byte :=
  xorMask (referenceCbc E (m.frame.length / 16) Block.zero m.frame).toList (E (m.ctr 0)) m.tagLen.toNat

/-- The wire format of an encrypted message (R115). -/
def Message.wire (E : Block → Block) (m : Message) : List Byte := m.ciphertext E ++ m.maskedTag E

/-- The message a state holds: the parameters, `AAD[0, AAD_LEN)` and `IN[0, n)`. -/
def State.message (s : State) (n : Nat) : Message where
  nonce := s.nonceBytes
  nonceLen := s.host.nonceLen
  tagLen := s.host.tagLen
  aad := s.host.aad.readBytes 0 s.host.aadLen.toNat
  payload := s.host.inp.readBytes 0 n

end Sys2Proof.Machine
end

