-- ==== Sys2Proof/Safety.lean ====
section
/-! DEFINITION. What a safe state is: the invariant every step keeps, in the terms the statements use. -/

namespace Sys2Proof.Machine

/-- Every entry of a byte space lies below its capacity. -/
abbrev Memory.below (m : Memory) (n : Nat) : Prop := ∀ c ∈ m, c.1 < n

/-- A byte space in canonical form and inside its capacity (R79). -/
abbrev Memory.ok (m : Memory) (n : Nat) : Prop := m.wf ∧ m.below n

/-- The five byte spaces are canonical and inside their capacities (R70, R79). -/
abbrev State.spacesOk (s : State) : Prop :=
  s.host.nonce.ok 13 ∧ s.host.aad.ok s.cap ∧ s.host.inp.ok s.cap ∧ s.result.out.ok s.cap ∧ s.work.wbuf.ok s.cap

/-- The parameters of the running command have passed VALIDATE_ARGS (R201). -/
abbrev State.argsOk (s : State) : Prop :=
  reservedBitsSet s.ctl.cmdLatch = false ∧ legalTagLen s.host.tagLen = true ∧ legalNonceLen s.host.nonceLen = true
  ∧ (s.isEnc = false → s.host.tagLen.toNat ≤ s.host.inputLen.toNat)
  ∧ s.work.plen = s.payloadLen ∧ lengthFits (15 - s.host.nonceLen.toNat) s.work.plen = true
  ∧ s.work.q.toNat = 15 - s.host.nonceLen.toNat

/-- The layout COMPOSE establishes (R168). -/
abbrev State.layoutOk (s : State) : Prop :=
  s.work.payloadOffset.toNat = 16 + s.work.aadPaddedLen.toNat ∧ s.work.aadPaddedLen.toNat % 16 = 0
  ∧ s.work.ppad.toNat % 16 = 0 ∧ s.work.plen.toNat ≤ s.work.ppad.toNat ∧ s.work.ppad.toNat < s.work.plen.toNat + 16
  ∧ s.work.payloadOffset.toNat + s.work.ppad.toNat ≤ s.cap
  ∧ (s.isEnc = false → s.work.payloadOffset.toNat + s.host.inputLen.toNat ≤ s.cap)
  ∧ s.work.keyUsed = true

/-- The phases after VALIDATE_ARGS and before CLEANUP. -/
def Phase.validated : Phase → Bool
  | .idle => false
  | .validateArgs => false
  | .composeFrame => true
  | .tagPrepare => true
  | .cipherPayload => true
  | .tagFinalize => true
  | .tagVerify => true
  | .emitResult => true
  | .cleanup => false

/-- The phases after COMPOSE_FRAME and before CLEANUP. -/
def Phase.composed : Phase → Bool
  | .idle => false
  | .validateArgs => false
  | .composeFrame => false
  | .tagPrepare => true
  | .cipherPayload => true
  | .tagFinalize => true
  | .tagVerify => true
  | .emitResult => true
  | .cleanup => false

/-- The phases in which no result has been emitted yet: OUT is still empty (R220, R244). -/
def Phase.beforeEmit : Phase → Bool
  | .idle => false
  | .validateArgs => true
  | .composeFrame => true
  | .tagPrepare => true
  | .cipherPayload => true
  | .tagFinalize => true
  | .tagVerify => true
  | .emitResult => true
  | .cleanup => false

/-- What COMPOSE needs to reach its call (R161 to R165): legal parameters, and a frame, on decrypt also the whole
input, that fits CAP; m is the message. -/
abbrev State.frameFits (s : State) (m : Message) : Prop :=
  s.host.tagLen.toNat ∈ [4, 6, 8, 10, 12, 14, 16] ∧ 7 ≤ s.host.nonceLen.toNat ∧ s.host.nonceLen.toNat ≤ 13
  ∧ s.work.plen.toNat < 2 ^ (8 * (15 - s.host.nonceLen.toNat)) ∧ m = s.message s.work.plen.toNat
  ∧ m.frame.length ≤ s.cap ∧ (s.isEnc = false → m.header.length + s.host.inputLen.toNat ≤ s.cap)

/-- The working registers at COMPOSE's call (R165): KEY_USED is 1 and CTR holds CTR0; WBUF and the layout registers
have been written; the rest, S0 among it, is unchanged. -/
abbrev Working.atComposeCall (w v : Working) (m : Message) : Prop :=
  v = { w with keyUsed := true, ctr := m.ctr 0, wbuf := v.wbuf, aadPaddedLen := v.aadPaddedLen,
               payloadOffset := v.payloadOffset, ppad := v.ppad, wbufLen := v.wbufLen }

/-- TAG_VERIFY's padding lies inside WBUF: it can be zeroed (R208). -/
abbrev State.paddingFits (s : State) : Prop :=
  s.work.plen.toNat ≤ s.work.ppad.toNat
  ∧ (s.work.plen = s.work.ppad ∨ s.work.payloadOffset.toNat + s.work.ppad.toNat ≤ s.cap)

/-- The padding zeroed, the start of TAG_VERIFY (R208). -/
abbrev State.zeroPadding (s : State) : State :=
  s.zeroWbuf (s.work.payloadOffset.toNat + s.work.plen.toNat) (s.work.ppad.toNat - s.work.plen.toNat)

/-- How many phase steps a command can still take (R221, R321). -/
def Phase.remaining : Phase → Nat
  | .idle => 0
  | .cleanup => 1
  | .emitResult => 2
  | .tagFinalize => 3
  | .tagVerify => 3
  | .cipherPayload => 4
  | .tagPrepare => 5
  | .composeFrame => 6
  | .validateArgs => 7

/-- The invariant of the block, true at reset and kept by every step. -/
structure State.Inv (s : State) : Prop where
  /-- Every byte space is canonical and inside its capacity (R70, R79). -/
  spaces : s.spacesOk
  /-- BUSY = 1 if and only if PHASE is not IDLE (R30). -/
  busy_iff : s.result.busy = true ↔ s.ctl.phase ≠ .idle
  /-- BUSY and DONE are never both 1 (R102). -/
  not_both : ¬ (s.result.busy = true ∧ s.result.done = true)
  /-- Only a running command can be stuck (R219). -/
  hung_busy : s.hung = true → s.result.busy = true
  /-- The resting state: working registers, WBUF and CMD_LATCH are zero (R54). -/
  resting : s.ctl.phase = .idle → s.work = Working.zero ∧ s.ctl.cmdLatch = 0
  /-- A command starts on zero working registers (R54, R244). -/
  fresh : s.ctl.phase = .validateArgs → s.work = Working.zero
  /-- An error stands only in CLEANUP and after the command (R288). -/
  failed : s.result.err ≠ none → s.ctl.phase = .cleanup ∨ s.ctl.phase = .idle
  /-- No stage-boundary check fires, no access leaves its space (R79, R215, R284, entry 9). -/
  not_badState : s.result.err ≠ some .badState
  /-- No output before EMIT_RESULT has run (R220, R244). -/
  gate : s.ctl.phase.beforeEmit = true → s.result.out = [] ∧ s.result.outLen = 0
  /-- A failed command leaves no output (R213, R291). -/
  no_output : s.result.err ≠ none → s.result.out = [] ∧ s.result.outLen = 0
  /-- OUT_LEN never exceeds CAP (R79, R255). -/
  outLen_le : s.result.outLen.toNat ≤ s.cap
  /-- OUT is zero at and above OUT_LEN (R50). -/
  out_tail : s.result.out.below s.result.outLen.toNat
  /-- After VALIDATE_ARGS the parameters are legal (R201). -/
  args : s.ctl.phase.validated = true → s.argsOk
  /-- After COMPOSE_FRAME the layout is the frame's (R168). -/
  layout : s.ctl.phase.composed = true → s.layoutOk
  /-- WBUF_LEN after COMPOSE_FRAME on encrypt, and after TAG_PREPARE on both paths (R41). -/
  frameLen : s.ctl.phase.composed = true → (s.isEnc = true ∨ s.ctl.phase ≠ .tagPrepare) →
    s.work.wbufLen.toNat = s.work.payloadOffset.toNat + s.work.ppad.toNat
  /-- WBUF_LEN after COMPOSE_FRAME on decrypt (R41, R164). -/
  inputLen : s.ctl.phase = .tagPrepare → s.isEnc = false →
    s.work.wbufLen.toNat = s.work.payloadOffset.toNat + s.host.inputLen.toNat
  /-- TAG_FINALIZE is reached only on encrypt (R221). -/
  finalize_enc : s.ctl.phase = .tagFinalize → s.isEnc = true
  /-- TAG_VERIFY is reached only on decrypt (R221). -/
  verify_dec : s.ctl.phase = .tagVerify → s.isEnc = false
  /-- EMIT_RESULT on decrypt is reached only with VERIFY_OK = 1 (R35). -/
  verified : s.ctl.phase = .emitResult → s.isEnc = false → s.work.verifyOk = true

/-- An outcome that is a next state. -/
def Goes (o : Host.Outcome State Fault Refusal) : Prop := ∃ t, o = .next t

end Sys2Proof.Machine
end

