-- ==== Sys2Proof/Certificates/Slice0/Obligations.lean ====
section
/-! DEFINITION. The statements about the machine, for the provers. Each docstring names the rules of spec/ a
statement rests on; `s.failureEntry e` is the failure entry (FailureEntryRecordsFirstError says what it
is) and `s.issue c` the state once the call c has been issued. -/

open Sys2Proof Sys2Proof.Machine

/-! ### Encoding and stepping -/

/-- R100, R101, R104, R120: decoding what the encoder writes gives the operation back, for every operation that
something selects. A write of register 0 is another name for the command its word encodes (R241). -/
def Obligations.DecodeOfEncodeIsIdentity : Prop :=
  ∀ (i : Instr) (c : Selector), i.wellFormed = true → (∀ v, i ≠ .hwr 0 v) → encode i = some c → decode c = .ok i

/-- R100, R101: every 32-bit CMD word has a reading, well-formed, and encoding it gives the same word: no bit is
dropped and no two words share a reading. -/
def Obligations.EveryCmdWordIsReadWhole : Prop :=
  ∀ w : Word, (decodeCmd w).wellFormed = true ∧ encode (decodeCmd w) = some (.event (.hwr 0 w))
    ∧ decode (.event (.hwr 0 w)) = .ok (decodeCmd w)

/-- R101: the four readings of a CMD word by the rule's masks. -/
def Obligations.CmdWordDecodesByMask : Prop :=
  ∀ w : Word,
    (w &&& 1#32 = 0#32 → ∃ x, decodeCmd w = .nop x)
    ∧ (w &&& 0xFFFFFFFB#32 = 3#32 → decodeCmd w = .ccmEncrypt (w.getLsbD 2))
    ∧ (w &&& 0xFFFFFFFB#32 = 1#32 → decodeCmd w = .ccmDecrypt (w.getLsbD 2))
    ∧ (w &&& 1#32 = 1#32 → w &&& 0xFFFFFFF8#32 ≠ 0#32 →
        decodeCmd w = .cmdReserved (w.extractLsb' 3 29) (w.getLsbD 2) (w.getLsbD 1))

/-- R100, R104: words written out from the tables decode to the operations they stand for. That a one-byte word is a
PHASE code with IS_ENC in bit 4, so that 0x13 is the encrypt arm, 0x03 the decrypt arm and 0x09 none, is the model's
choice of a layout for table words (entry 14). -/
def Obligations.SampleWordsDecode : Prop :=
  decodeTableWord 32 0x00000003 = some (.ccmEncrypt false) ∧ decodeTableWord 32 0x00000005 = some (.ccmDecrypt true)
  ∧ decodeTableWord 32 0x00000006 = some (.nop 3) ∧ decodeTableWord 32 0x80000003 = some (.cmdReserved 0x10000000 false true)
  ∧ decodeTableWord 8 0x02 = some .composeFrame ∧ decodeTableWord 8 0x08 = some .cleanup
  ∧ decodeTableWord 8 0x13 = some .tagPrepareEnc ∧ decodeTableWord 8 0x03 = some .tagPrepareDec
  ∧ decodeTableWord 8 0x09 = none

/-- R104, R120: the codes of the phases, the operation each code decodes to, with IS_ENC choosing the arm of TAG_PREPARE
and EMIT_RESULT. That the unused codes 9 to 15, which PHASE never holds, are rejected by name is the model's
choice (entry 17). -/
def Obligations.PhaseCodesDecode : Prop :=
  (∀ e : Bool, decode (.phase 0 e) = .ok .idle ∧ decode (.phase 1 e) = .ok .validateArgs
    ∧ decode (.phase 2 e) = .ok .composeFrame
    ∧ decode (.phase 3 e) = .ok (if e then .tagPrepareEnc else .tagPrepareDec)
    ∧ decode (.phase 4 e) = .ok .cipherPayload ∧ decode (.phase 5 e) = .ok .tagFinalize
    ∧ decode (.phase 6 e) = .ok .tagVerify
    ∧ decode (.phase 7 e) = .ok (if e then .emitResultEnc else .emitResultDec)
    ∧ decode (.phase 8 e) = .ok .cleanup)
  ∧ [Phase.idle, .validateArgs, .composeFrame, .tagPrepare, .cipherPayload, .tagFinalize, .tagVerify, .emitResult,
      .cleanup].map Phase.code = [0, 1, 2, 3, 4, 5, 6, 7, 8]
  ∧ (∀ p : Phase, Phase.ofCode p.code = some p)
  ∧ (∀ (c : BitVec 4) (e : Bool), 9 ≤ c.toNat → decode (.phase c e) = .error (.reservedPhase c))

/-- R120, R200, R240, model's entries 1 and 16: a step takes the oldest pending event, or the Orchestrator's turn
where none is pending, and runs exactly the operation its selector decodes to, on the state with that
event taken. -/
def Obligations.StepRunsDecodedOperation : Prop :=
  ∀ (s : State) (i : Instr), (s.nextEvent = .tick → s.hung = false) → decode (s.selector s.nextEvent) = .ok i →
    step s = exec i s.takeEvent

/-- R200, R219: while a phase step is stuck the Orchestrator takes no step; PHASE and BUSY keep their values. -/
def Obligations.StuckOrchestratorStandsStill : Prop :=
  ∀ s : State, s.nextEvent = .tick → s.hung = true → step s = .next s.takeEvent

/-! ### Host transactions and commands -/

/-- R241: while idle a write of a register 2 to 7 stores all 32 bits; every other register reads as before and
nothing else changes. A write of register 0 is the command its word encodes, in every state. -/
def Obligations.HwrStoresRegister : Prop :=
  (∀ (reg v : Word) (s : State), 2 ≤ reg.toNat → reg.toNat ≤ 7 → s.result.busy = false →
    ∃ t, exec (.hwr reg v) s = .next t ∧ t.hostRead reg = v ∧ (∀ r, r ≠ reg → t.hostRead r = s.hostRead r)
      ∧ t = { s with host := { t.host with nonce := s.host.nonce, aad := s.host.aad, inp := s.host.inp } })
  ∧ ∀ (v : Word) (s : State), exec (.hwr 0 v) s = exec (decodeCmd v) s

/-- R246, R247: while busy every write that would have had an effect is dropped and sets REJ: CMD words, registers
2 to 7, in-range bytes of NONCE, AAD and IN. -/
def Obligations.BusyWritesOnlySetRej : Prop :=
  ∀ s : State, s.result.busy = true →
    (∀ k, exec (.ccmEncrypt k) s = .next { s with result := { s.result with rej := true } })
    ∧ (∀ k, exec (.ccmDecrypt k) s = .next { s with result := { s.result with rej := true } })
    ∧ (∀ x, exec (.nop x) s = .next { s with result := { s.result with rej := true } })
    ∧ (∀ r k e, exec (.cmdReserved r k e) s = .next { s with result := { s.result with rej := true } })
    ∧ (∀ reg v, reg = 0 ∨ (2 ≤ reg.toNat ∧ reg.toNat ≤ 7) →
        exec (.hwr reg v) s = .next { s with result := { s.result with rej := true } })
    ∧ (∀ sp off v, sp ≤ 2 → off.toNat < (if sp = 0 then 13 else s.cap) →
        exec (.hwrb sp off v) s = .next { s with result := { s.result with rej := true } })

/-- R249, R250, R251: writes to read-only or unassigned registers, to OUT, to unassigned selectors and to offsets at
or above the capacity do nothing, in every phase. -/
def Obligations.WritesWithoutTargetDoNothing : Prop :=
  (∀ (reg v : Word) (s : State), reg.toNat = 1 ∨ 8 ≤ reg.toNat → exec (.hwr reg v) s = .next s)
  ∧ (∀ (sp : Nat) (off : Word) (v : Byte) (s : State),
      3 ≤ sp ∨ (if sp = 0 then 13 else s.cap) ≤ off.toNat → exec (.hwrb sp off v) s = .next s)

/-- R242 with the codes of R103: a register read returns the value of the rule's table and changes nothing of the
block. -/
def Obligations.HrdReturnsRegister : Prop :=
  ∀ (reg : Word) (s : State), ∃ w : Word,
    exec (.hrd reg) s = .next { s with env := { s.env with resp := .word w } }
    ∧ (reg.toNat = 0 → w = 0)
    ∧ (reg.toNat = 1 → w.toNat = s.result.busy.toNat + 2 * s.result.done.toNat + 4 * s.result.rej.toNat + 16 *
        (match s.result.err with
          | none => 0
          | some .invalidArgument => 1
          | some .badLength => 2
          | some .tooBig => 3
          | some .badState => 4
          | some .authenticationFailed => 5
          | some .engineFailure => 6))
    ∧ (reg.toNat = 2 → w = s.host.keyCtx) ∧ (reg.toNat = 3 → w = s.host.nonceLen) ∧ (reg.toNat = 4 → w = s.host.tagLen)
    ∧ (reg.toNat = 5 → w = s.host.aadLenLo) ∧ (reg.toNat = 6 → w = s.host.aadLenHi)
    ∧ (reg.toNat = 7 → w = s.host.inputLen)
    ∧ (reg.toNat = 8 → w = if s.result.busy then 0 else s.result.outLen)
    ∧ (reg.toNat = 9 → w.toNat = s.cap) ∧ (10 ≤ reg.toNat → w = 0)

/-- R243: while idle an in-range byte write of NONCE, AAD or IN stores the byte; every other byte of every space
reads as before and nothing else changes. -/
def Obligations.HwrbStoresByte : Prop :=
  ∀ (sp : Nat) (S : Space) (off : Word) (v : Byte) (s : State),
    (sp = 0 ∧ S = .nonce ∧ off.toNat < 13) ∨ (sp = 1 ∧ S = .aad ∧ off.toNat < s.cap)
      ∨ (sp = 2 ∧ S = .inp ∧ off.toNat < s.cap) →
    s.result.busy = false →
    ∃ t, exec (.hwrb sp off v) s = .next t
      ∧ (∀ (T : Space) (a : Nat), (t.space T).get a = if T = S ∧ a = off.toNat then v else (s.space T).get a)
      ∧ t = { s with host := { s.host with nonce := t.host.nonce, aad := t.host.aad, inp := t.host.inp } }

/-- R243, R248, R250: a byte read returns the byte, 0 out of range, and 0 for OUT while busy; it changes nothing
else. -/
def Obligations.HrdbReturnsByte : Prop :=
  ∀ (sp : Nat) (off : Word) (s : State), ∃ b : Byte,
    exec (.hrdb sp off) s = .next { s with env := { s.env with resp := .byte b } }
    ∧ (sp = 0 → b = if off.toNat < 13 then s.host.nonce.get off.toNat else 0)
    ∧ (sp = 1 → b = if off.toNat < s.cap then s.host.aad.get off.toNat else 0)
    ∧ (sp = 2 → b = if off.toNat < s.cap then s.host.inp.get off.toNat else 0)
    ∧ (sp = 3 → b = if off.toNat < s.cap ∧ s.result.busy = false then s.result.out.get off.toNat else 0)
    ∧ (4 ≤ sp → b = 0)

/-- R244, R252: while idle CCM_ENCRYPT, CCM_DECRYPT and CMD_RESERVED are accepted: the word is latched, the flags are
those of a fresh command, OUT is cleared, PHASE is VALIDATE_ARGS; nothing else changes. -/
def Obligations.StartAcceptsCommand : Prop :=
  ∀ (r : BitVec 29) (k e : Bool) (s : State), s.result.busy = false →
    ∃ t : State, exec (.cmdReserved r k e) s = .next t
      ∧ (r = 0 → e = true → exec (.ccmEncrypt k) s = .next t) ∧ (r = 0 → e = false → exec (.ccmDecrypt k) s = .next t)
      ∧ t = { s with
          ctl := { phase := .validateArgs, cmdLatch := t.ctl.cmdLatch }
          result := { busy := true, done := false, rej := false, err := none, outLen := 0, out := t.result.out }
          work := { s.work with keyUsed := false, verifyOk := false } }
      ∧ t.ctl.cmdLatch.toNat = 8 * r.toNat + 4 * k.toNat + 2 * e.toNat + 1 ∧ t.isEnc = e ∧ t.keepKey = k
      ∧ ∀ a, t.result.out.get a = if a < s.cap then 0 else s.result.out.get a

/-- R245: NOP, a CMD word with GO = 0 while idle, writes nothing. -/
def Obligations.NopWritesNothing : Prop :=
  ∀ (x : BitVec 31) (s : State), s.result.busy = false → exec (.nop x) s = .next s

/-- R253 with the model's entry 11: POLL reads STATUS; while BUSY it gives the Orchestrator a turn and polls again. -/
def Obligations.PollReadsStatus : Prop :=
  ∀ s : State,
    (s.result.busy = false → exec .poll s = .next { s with env := { s.env with resp := .word s.result.status } })
    ∧ (s.result.busy = true → exec .poll s = .next { s with env := { s.env with
        resp := .word s.result.status, events := .tick :: .poll :: s.env.events } })

/-- R255 with the model's entry 12: CCM_PROCESS issues the parameter writes, one byte write for each byte within
the capacities, the START, the poll and the result reads, before anything else that is pending. -/
def Obligations.CcmProcessIssuesTransactions : Prop :=
  ∀ (a : CcmArgs) (s : State), a.wellFormed = true →
    ∃ t, exec (.ccmProcess a) s = .next t ∧ t = { s with env := { s.env with events := t.env.events } }
      ∧ t.env.events =
      [.hwr 3 a.nonceLen, .hwr 4 a.tagLen, .hwr 5 (BitVec.ofNat 32 (a.aadLen.toNat % 2 ^ 32)),
        .hwr 6 (BitVec.ofNat 32 (a.aadLen.toNat / 2 ^ 32)), .hwr 7 a.inputLen]
      ++ (a.nonce.take 13).zipIdx.map (fun p => .hwrb 0 (BitVec.ofNat 32 p.2) p.1)
      ++ (a.aad.take s.cap).zipIdx.map (fun p => .hwrb 1 (BitVec.ofNat 32 p.2) p.1)
      ++ (a.input.take s.cap).zipIdx.map (fun p => .hwrb 2 (BitVec.ofNat 32 p.2) p.1)
      ++ [.hwr 0 (BitVec.ofNat 32 (1 + 2 * a.isEncrypt.toNat + 4 * a.keepKey.toNat)), .poll, .ccmReturn]
      ++ s.env.events

/-- R103, R254, R255 with the model's entry 12: the end of CCM_PROCESS with BUSY = 0 returns Err(code), or Ok(OUT_LEN) with
the OUT_LEN bytes of OUT. -/
def Obligations.CcmReturnReportsResult : Prop :=
  ∀ s : State, s.nextEvent = .ccmReturn → s.result.busy = false → s.result.outLen.toNat ≤ s.cap →
    step s = .next { s.takeEvent with env := { s.takeEvent.env with resp :=
      match s.result.err with
      | some .invalidArgument => .ccmErr 1
      | some .badLength => .ccmErr 2
      | some .tooBig => .ccmErr 3
      | some .badState => .ccmErr 4
      | some .authenticationFailed => .ccmErr 5
      | some .engineFailure => .ccmErr 6
      | none => .ccmOk s.result.outLen (s.result.out.readBytes 0 s.result.outLen.toNat) } }

/-- R311, R312: RESET zeroes every register, flag and byte, makes PHASE IDLE, drops a stuck step and makes no call;
CAPACITY still reads CAP. That the environment's data (pending events, recorded answers, the call log, the last
reply) outlives it is the model's entry 15. -/
def Obligations.ResetZeroesEverything : Prop :=
  ∀ s : State, ∃ t, exec .reset s = .next t
    ∧ (∀ reg, reg.toNat ≠ 9 → t.hostRead reg = 0) ∧ (t.hostRead 9).toNat = s.cap
    ∧ (∀ (S : Space) (a : Nat), (t.space S).get a = 0)
    ∧ t = { capUnits := s.capUnits, host := HostOwned.zero, result := ResultState.zero,
            ctl := { phase := .idle, cmdLatch := 0 }, work := Working.zero, hung := false, env := s.env }

/-! ### Failures -/

/-- R288: the failure entry of every error keeps the first error of a command, sends PHASE to CLEANUP and changes nothing
else, in every state; a raise of VALIDATE_ARGS on a reserved command bit (R201) performs it. -/
def Obligations.FailureEntryRecordsFirstError : Prop :=
  (∀ (e : CcmError) (s : State), s.failureEntry e = { s with
      result := { s.result with err := if s.result.err = none then some e else s.result.err }
      ctl := { s.ctl with phase := .cleanup } })
  ∧ ∀ s : State, s.ctl.cmdLatch &&& 0xFFFFFFF8#32 ≠ 0#32 →
    ∃ t, exec .validateArgs s = .next t
      ∧ t = { s with result := { s.result with err := t.result.err }, ctl := { s.ctl with phase := .cleanup } }
      ∧ (s.result.err = none → t.result.err = some .invalidArgument)
      ∧ (s.result.err ≠ none → t.result.err = s.result.err)

/-- R165, R208, R264, R286: `fail` from ecb_encrypt_block, ctr_encrypt or cbc_mac raises EngineFailure in the call and in
every function and phase that makes it. The call has been issued; of the block's state nothing has changed, but for
what precedes the call: in COMPOSE the layout, KEY_USED = 1 and CTR = CTR0 (S0 is not written), in TAG_VERIFY the
zeroed padding. -/
def Obligations.EngineFailureIsPropagated : Prop :=
  ∀ s : State,
    (s.nextAnswer (.ecbEncryptBlock s.host.keyCtx s.work.ctr) = .fail →
      exec .ecbEncryptBlock s
        = .next ((s.issue (.ecbEncryptBlock s.host.keyCtx s.work.ctr)).failureEntry .engineFailure))
    ∧ (∀ (m : Message) (c : Call), s.frameFits m → c = .ecbEncryptBlock s.host.keyCtx (m.ctr 0) →
        s.nextAnswer c = .fail →
        ∃ w : Working, s.work.atComposeCall w m
          ∧ exec .compose s = .next (State.failureEntry .engineFailure { s.issue c with work := w })
          ∧ exec .composeFrame s = .next (State.failureEntry .engineFailure { s.issue c with work := w }))
    ∧ (∀ off len : Word, len.toNat % 16 = 0 → len ≠ 0 → off.toNat + len.toNat ≤ s.cap →
        ∀ c, c = Call.ctrEncrypt s.host.keyCtx s.work.ctr (s.work.wbuf.readBytes off.toNat len.toNat) len →
          s.nextAnswer c = .fail →
          exec (.ctrEncrypt off len) s = .next ((s.issue c).failureEntry .engineFailure)
          ∧ exec (.cipherPayloadFn off len) s = .next ((s.issue c).failureEntry .engineFailure)
          ∧ (off = s.work.payloadOffset → len = s.work.ppad →
              exec .cipherPayload s = .next ((s.issue c).failureEntry .engineFailure)))
    ∧ (∀ len : Word, len.toNat % 16 = 0 → 16 ≤ len.toNat → len.toNat ≤ s.cap →
        ∀ c, c = Call.cbcMac s.host.keyCtx (s.work.wbuf.readBytes 0 len.toNat) len → s.nextAnswer c = .fail →
          exec (.cbcMac len) s = .next ((s.issue c).failureEntry .engineFailure)
          ∧ exec (.computeTag len) s = .next ((s.issue c).failureEntry .engineFailure)
          ∧ (len = s.work.wbufLen → exec .tagPrepareEnc s = .next ((s.issue c).failureEntry .engineFailure)))
    ∧ (∀ c : Call, s.paddingFits → s.work.wbufLen.toNat % 16 = 0 → 16 ≤ s.work.wbufLen.toNat →
        s.work.wbufLen.toNat ≤ s.cap →
        c = .cbcMac s.host.keyCtx (s.zeroPadding.work.wbuf.readBytes 0 s.work.wbufLen.toNat) s.work.wbufLen →
        s.nextAnswer c = .fail →
        exec .tagVerify s = .next ((s.zeroPadding.issue c).failureEntry .engineFailure))

/-- R219, R265 with the model's entry 4: a call that never returns leaves the call, function or phase step that makes it
stuck: the call has been issued, and PHASE, BUSY and all else of the block keep their values, but for what precedes
the call: in COMPOSE the layout, KEY_USED and CTR, in TAG_VERIFY the zeroed padding. -/
def Obligations.UnansweredCallIsStuck : Prop :=
  ∀ s : State,
    (∀ c, c = Call.ecbEncryptBlock s.host.keyCtx s.work.ctr → s.nextAnswer c = .noReturn →
      exec .ecbEncryptBlock s = .next { s.issue c with hung := true })
    ∧ (∀ (m : Message) (c : Call), s.frameFits m → c = .ecbEncryptBlock s.host.keyCtx (m.ctr 0) →
        s.nextAnswer c = .noReturn →
        ∃ w : Working, s.work.atComposeCall w m ∧ exec .compose s = .next { s.issue c with work := w, hung := true }
          ∧ exec .composeFrame s = .next { s.issue c with work := w, hung := true })
    ∧ (∀ c, c = Call.keyslotErase s.host.keyCtx → s.nextAnswer c = .noReturn →
      exec .keyslotErase s = .next { s.issue c with hung := true }
      ∧ (s.work.keyUsed = true → s.keepKey = false → exec .cleanup s = .next { s.issue c with hung := true }))
    ∧ (∀ off len : Word, len.toNat % 16 = 0 → len ≠ 0 → off.toNat + len.toNat ≤ s.cap →
        ∀ c, c = Call.ctrEncrypt s.host.keyCtx s.work.ctr (s.work.wbuf.readBytes off.toNat len.toNat) len →
          s.nextAnswer c = .noReturn →
          exec (.ctrEncrypt off len) s = .next { s.issue c with hung := true }
          ∧ exec (.cipherPayloadFn off len) s = .next { s.issue c with hung := true }
          ∧ (off = s.work.payloadOffset → len = s.work.ppad →
              exec .cipherPayload s = .next { s.issue c with hung := true }))
    ∧ (∀ len : Word, len.toNat % 16 = 0 → 16 ≤ len.toNat → len.toNat ≤ s.cap →
        ∀ c, c = Call.cbcMac s.host.keyCtx (s.work.wbuf.readBytes 0 len.toNat) len → s.nextAnswer c = .noReturn →
          exec (.cbcMac len) s = .next { s.issue c with hung := true }
          ∧ exec (.computeTag len) s = .next { s.issue c with hung := true }
          ∧ (len = s.work.wbufLen → exec .tagPrepareEnc s = .next { s.issue c with hung := true }))
    ∧ (∀ c : Call, s.paddingFits → s.work.wbufLen.toNat % 16 = 0 → 16 ≤ s.work.wbufLen.toNat →
        s.work.wbufLen.toNat ≤ s.cap →
        c = .cbcMac s.host.keyCtx (s.zeroPadding.work.wbuf.readBytes 0 s.work.wbufLen.toNat) s.work.wbufLen →
        s.nextAnswer c = .noReturn →
        exec .tagVerify s = .next { s.zeroPadding.issue c with hung := true })

/-- R208, R215, R284: a length at an engine boundary that is not a multiple of 16 (or below 16 for the MAC) raises BadState
before any call is issued, in the call and in every function and phase that makes it; in TAG_VERIFY the padding has
been zeroed before. -/
def Obligations.MisalignedLengthIsBadState : Prop :=
  ∀ (off len : Word) (s : State),
    (len.toNat % 16 ≠ 0 → exec (.ctrEncrypt off len) s = .next (s.failureEntry .badState)
      ∧ exec (.cipherPayloadFn off len) s = .next (s.failureEntry .badState)
      ∧ (len = s.work.ppad → exec .cipherPayload s = .next (s.failureEntry .badState)))
    ∧ (len.toNat % 16 ≠ 0 ∨ len.toNat < 16 → exec (.cbcMac len) s = .next (s.failureEntry .badState)
      ∧ exec (.computeTag len) s = .next (s.failureEntry .badState)
      ∧ (len = s.work.wbufLen → exec .tagPrepareEnc s = .next (s.failureEntry .badState)
        ∧ (s.paddingFits → exec .tagVerify s = .next (s.zeroPadding.failureEntry .badState))))

/-- R79, R103, R142, R146, R182, R183, R191, R284 with the model's entries 8 and 9: outside the rules' domains. A function
or call row run on its own on operands outside its domain stops with a fault of its own name (entry 8). An internal
invariant that only a corrupted state breaks is BadState, as R284 has it for a length (entry 9): a region that leaves
its space, TAG_LEN above the 16 bytes of a tag register, PPAD below PLEN, a WBUF_LEN above 32 bits. -/
def Obligations.OutsideDomainFaultOrBadState : Prop :=
  (∀ (nonce : NonceBytes) (n : Word) (m : Nat) (s : State), n.toNat < 7 ∨ 13 < n.toNat →
    exec (.encCtr0Flags n) s = .fault (.outsideDomain "ENC_CTR0_FLAGS")
    ∧ exec (.encCtr0 nonce n) s = .fault (.outsideDomain "ENC_CTR0")
    ∧ exec (.ctrM nonce n m) s = .fault (.outsideDomain "CTR_M"))
  ∧ (∀ (nonce : NonceBytes) (n : Word) (m : Nat) (s : State), 2 ^ (8 * (15 - n.toNat)) ≤ m →
    exec (.ctrM nonce n m) s = .fault (.outsideDomain "CTR_M"))
  ∧ (∀ (tag : List Byte) (s0 : Block) (n : Word) (s : State), tag.length ≠ n.toNat ∨ 16 < n.toNat →
    exec (.xorMask tag s0 n) s = .fault (.outsideDomain "XOR_MASK"))
  ∧ (∀ (cand exp : List Byte) (n : Word) (s : State), cand.length ≠ n.toNat ∨ exp.length ≠ n.toNat →
    exec (.verify cand exp n) s = .fault (.outsideDomain "VERIFY"))
  ∧ (∀ (off : Word) (s : State), exec (.ctrEncrypt off 0) s = .fault (.outsideDomain "ctr_encrypt"))
  ∧ (∀ (off len : Word) (s : State), len.toNat % 16 = 0 → 0 < len.toNat → s.cap < off.toNat + len.toNat →
    exec (.ctrEncrypt off len) s = .next (s.failureEntry .badState)
    ∧ exec (.cipherPayloadFn off len) s = .next (s.failureEntry .badState)
    ∧ (off = s.work.payloadOffset → len = s.work.ppad →
        exec .cipherPayload s = .next (s.failureEntry .badState)))
  ∧ (∀ (len : Word) (s : State), len.toNat % 16 = 0 → s.cap < len.toNat →
    exec (.cbcMac len) s = .next (s.failureEntry .badState)
    ∧ exec (.computeTag len) s = .next (s.failureEntry .badState)
    ∧ (len = s.work.wbufLen → exec .tagPrepareEnc s = .next (s.failureEntry .badState)
      ∧ (s.paddingFits → exec .tagVerify s = .next (s.zeroPadding.failureEntry .badState))))
  ∧ (∀ s : State, 16 < s.host.tagLen.toNat → exec .tagPrepareDec s = .next (s.failureEntry .badState)
    ∧ exec .tagFinalize s = .next (s.failureEntry .badState)
    ∧ exec .emitResultEnc s = .next (s.failureEntry .badState))
  ∧ (∀ (len : Word) (s : State) (c : Call) (mac : Block) (d : List Byte), 16 < s.host.tagLen.toNat →
    len.toNat % 16 = 0 → 16 ≤ len.toNat → len.toNat ≤ s.cap →
    (c = .cbcMac s.host.keyCtx (s.work.wbuf.readBytes 0 len.toNat) len → s.nextAnswer c = .ok mac d →
      exec (.computeTag len) s = .next ((s.issue c).failureEntry .badState)
      ∧ (len = s.work.wbufLen → exec .tagPrepareEnc s = .next ((s.issue c).failureEntry .badState)))
    ∧ (c = .cbcMac s.host.keyCtx (s.zeroPadding.work.wbuf.readBytes 0 len.toNat) len → s.nextAnswer c = .ok mac d →
      s.paddingFits → len = s.work.wbufLen →
      exec .tagVerify s = .next ((s.zeroPadding.issue c).failureEntry .badState)))
  ∧ (∀ s : State, 0 < s.host.tagLen.toNat → s.host.tagLen.toNat ≤ 16 →
    s.cap < s.work.payloadOffset.toNat + s.work.plen.toNat + s.host.tagLen.toNat →
    exec .tagPrepareDec s = .next (s.failureEntry .badState))
  ∧ (∀ s : State, s.host.tagLen.toNat ≤ 16 →
    s.host.tagLen = 0 ∨ s.work.payloadOffset.toNat + s.work.plen.toNat + s.host.tagLen.toNat ≤ s.cap →
    2 ^ 32 ≤ s.work.payloadOffset.toNat + s.work.ppad.toNat →
    ∃ w : Working, w = { s.work with candTag := w.candTag, wbuf := w.wbuf }
      ∧ exec .tagPrepareDec s = .next (State.failureEntry .badState { s with work := w }))
  ∧ (∀ s : State, 0 < s.work.plen.toNat → s.cap < s.work.payloadOffset.toNat + s.work.plen.toNat →
    (s.host.tagLen.toNat ≤ 16 → exec .emitResultEnc s = .next (s.failureEntry .badState))
    ∧ exec .emitResultDec s = .next (s.failureEntry .badState))
  ∧ (∀ s : State, s.host.tagLen.toNat ≤ 16 →
    s.work.plen = 0 ∨ s.work.payloadOffset.toNat + s.work.plen.toNat ≤ s.cap →
    s.cap < s.work.plen.toNat + s.host.tagLen.toNat → exec .emitResultEnc s = .next (s.failureEntry .badState))
  ∧ (∀ s : State, s.work.ppad.toNat < s.work.plen.toNat
      ∨ (s.work.plen.toNat < s.work.ppad.toNat ∧ s.cap < s.work.payloadOffset.toNat + s.work.ppad.toNat) →
    exec .tagVerify s = .next (s.failureEntry .badState))

/-! ### Component functions -/

/-- R11, R12: cadd32 returns the exact sum and ceil16 the least multiple of 16 not below x; where 2^32 is reached they
raise TooBig and never wrap. -/
def Obligations.CheckedArithmeticNeverWraps : Prop :=
  (∀ (a b : Word) (s : State),
    (a.toNat + b.toNat < 2 ^ 32 → ∃ w : Word, w.toNat = a.toNat + b.toNat
      ∧ exec (.cadd32 a b) s = .next { s with env := { s.env with resp := .word w } })
    ∧ (2 ^ 32 ≤ a.toNat + b.toNat → exec (.cadd32 a b) s = .next (s.failureEntry .tooBig)))
  ∧ (∀ (x : Word) (s : State),
    (x.toNat + 15 < 2 ^ 32 → ∃ w : Word, w.toNat % 16 = 0 ∧ x.toNat ≤ w.toNat ∧ w.toNat < x.toNat + 16
      ∧ exec (.ceil16 x) s = .next { s with env := { s.env with resp := .word w } })
    ∧ (2 ^ 32 ≤ x.toNat + 15 → exec (.ceil16 x) s = .next (s.failureEntry .tooBig)))

/-- R107, R108, R140: the B0 flags byte for legal parameters: bit 7 zero, bit 6 AAD-present, bits 5:3 the tag size,
bits 2:0 q - 1. -/
def Obligations.B0FlagsLayout : Prop :=
  ∀ (nonceLen tagLen payloadLen : Word) (aad : Bool) (s : State),
    tagLen.toNat ∈ [4, 6, 8, 10, 12, 14, 16] → 7 ≤ nonceLen.toNat → nonceLen.toNat ≤ 13 →
    payloadLen.toNat < 2 ^ (8 * (15 - nonceLen.toNat)) →
    ∃ b : Byte, exec (.encB0Flags nonceLen tagLen aad payloadLen) s
        = .next { s with env := { s.env with resp := .byte b } }
      ∧ b.getLsbD 7 = false ∧ b.getLsbD 6 = aad ∧ (b.extractLsb' 3 3).toNat = (tagLen.toNat - 2) / 2
      ∧ (b.extractLsb' 0 3).toNat = 14 - nonceLen.toNat

/-- R140: ENC_B0_FLAGS and ENC_B0 raise InvalidArgument on an illegal tag or nonce length, BadLength on a payload q
bytes cannot hold, in that order. -/
def Obligations.B0FlagsRejectsInOrder : Prop :=
  ∀ (nonce : NonceBytes) (nonceLen tagLen payloadLen : Word) (aad : Bool) (aadLen : Long) (s : State),
    (tagLen.toNat ∉ [4, 6, 8, 10, 12, 14, 16] ∨ nonceLen.toNat < 7 ∨ 13 < nonceLen.toNat →
      exec (.encB0Flags nonceLen tagLen aad payloadLen) s = .next (s.failureEntry .invalidArgument)
      ∧ exec (.encB0 nonce nonceLen tagLen aadLen payloadLen) s = .next (s.failureEntry .invalidArgument))
    ∧ (tagLen.toNat ∈ [4, 6, 8, 10, 12, 14, 16] → 7 ≤ nonceLen.toNat → nonceLen.toNat ≤ 13 →
      2 ^ (8 * (15 - nonceLen.toNat)) ≤ payloadLen.toNat →
      exec (.encB0Flags nonceLen tagLen aad payloadLen) s = .next (s.failureEntry .badLength)
      ∧ exec (.encB0 nonce nonceLen tagLen aadLen payloadLen) s = .next (s.failureEntry .badLength))

/-- R106, R141: B0 is the flags byte, the nonce, the payload length big-endian in the last q bytes. -/
def Obligations.B0Layout : Prop :=
  ∀ (nonce : NonceBytes) (nonceLen tagLen payloadLen : Word) (aadLen : Long) (s : State),
    tagLen.toNat ∈ [4, 6, 8, 10, 12, 14, 16] → 7 ≤ nonceLen.toNat → nonceLen.toNat ≤ 13 →
    payloadLen.toNat < 2 ^ (8 * (15 - nonceLen.toNat)) →
    ∃ b : Block, exec (.encB0 nonce nonceLen tagLen aadLen payloadLen) s
        = .next { s with env := { s.env with resp := .bytes b.toList } }
      ∧ b[0].toNat = 64 * (if 0 < aadLen.toNat then 1 else 0) + 8 * ((tagLen.toNat - 2) / 2) + (14 - nonceLen.toNat)
      ∧ (∀ i, i < nonceLen.toNat → b.toList.getD (1 + i) 0 = nonce.toList.getD i 0)
      ∧ beValue (b.toList.drop (1 + nonceLen.toNat)) = payloadLen.toNat

/-- R109, R110, R142, R143, R146: the counter blocks: the flags byte is q - 1, then the nonce, then the counter
big-endian in q bytes; CTR0 has counter 0. -/
def Obligations.CounterBlockLayout : Prop :=
  ∀ (nonce : NonceBytes) (nonceLen : Word) (m : Nat) (s : State),
    7 ≤ nonceLen.toNat → nonceLen.toNat ≤ 13 → m < 2 ^ (8 * (15 - nonceLen.toNat)) →
    (∃ f : Byte, f.toNat = 14 - nonceLen.toNat
      ∧ exec (.encCtr0Flags nonceLen) s = .next { s with env := { s.env with resp := .byte f } })
    ∧ (∃ b : Block, exec (.ctrM nonce nonceLen m) s = .next { s with env := { s.env with resp := .bytes b.toList } }
      ∧ b[0].toNat = 14 - nonceLen.toNat
      ∧ (∀ i, i < nonceLen.toNat → b.toList.getD (1 + i) 0 = nonce.toList.getD i 0)
      ∧ beValue (b.toList.drop (1 + nonceLen.toNat)) = m
      ∧ (m = 0 → exec (.encCtr0 nonce nonceLen) s = .next { s with env := { s.env with resp := .bytes b.toList } }))

/-- R111, R144: the AAD length prefix: nothing for 0, 2 bytes below 2^16 - 2^8, FF FE and 4 bytes below 2^32, FF FF
and 8 bytes otherwise, big-endian. -/
def Obligations.AadPrefixForms : Prop :=
  ∀ (aadLen : Long) (s : State), ∃ (bs : List Byte) (k : Nat),
    exec (.encAadLen aadLen) s = .next { s with env := { s.env with resp := .aadPrefix bs k } } ∧ bs.length = k
    ∧ (aadLen.toNat = 0 → k = 0)
    ∧ (0 < aadLen.toNat → aadLen.toNat < 65280 → k = 2 ∧ beValue bs = aadLen.toNat)
    ∧ (65280 ≤ aadLen.toNat → aadLen.toNat < 2 ^ 32 →
        k = 6 ∧ bs.take 2 = [0xFF, 0xFE] ∧ beValue (bs.drop 2) = aadLen.toNat)
    ∧ (2 ^ 32 ≤ aadLen.toNat → k = 10 ∧ bs.take 2 = [0xFF, 0xFF] ∧ beValue (bs.drop 2) = aadLen.toNat)

/-- R112, R145: LEN_FITS holds exactly when the length is below 2^(8q), and for every 32-bit length once q is 4 or
more. -/
def Obligations.LenFitsIsTheBound : Prop :=
  ∀ (q : Nat) (payloadLen : Word) (s : State), ∃ b : Bool,
    exec (.lenFits q payloadLen) s = .next { s with env := { s.env with resp := .bit b } }
    ∧ (b = true ↔ payloadLen.toNat < 2 ^ (8 * q)) ∧ (4 ≤ q → b = true)

/-- R182: XOR_MASK combines byte by byte with S0, and applied twice gives the tag back. -/
def Obligations.XorMaskIsAnInvolution : Prop :=
  ∀ (tag : List Byte) (s0 : Block) (tagLen : Word) (s : State), tag.length = tagLen.toNat → tagLen.toNat ≤ 16 →
    ∃ out : List Byte, out.length = tagLen.toNat
      ∧ exec (.xorMask tag s0 tagLen) s = .next { s with env := { s.env with resp := .bytes out } }
      ∧ (∀ i, i < tagLen.toNat → out.getD i 0 = tag.getD i 0 ^^^ s0.toList.getD i 0)
      ∧ exec (.xorMask out s0 tagLen) s = .next { s with env := { s.env with resp := .bytes tag } }

/-- R183: VERIFY answers 1 if and only if the two strings are equal in all tag_len bytes. -/
def Obligations.VerifyIsEquality : Prop :=
  ∀ (cand exp : List Byte) (tagLen : Word) (s : State), cand.length = tagLen.toNat → exp.length = tagLen.toNat →
    ∃ b : Bool, exec (.verify cand exp tagLen) s = .next { s with env := { s.env with resp := .bit b } }
      ∧ (b = true ↔ cand = exp)

/-! ### Collaborator calls -/

/-- R260: a successful ecb_encrypt_block of KEY_CTX and CTR writes the answer to S0 and nothing else. -/
def Obligations.EcbCallWritesS0 : Prop :=
  ∀ (s : State) (out : Block) (d : List Byte),
    s.nextAnswer (.ecbEncryptBlock s.host.keyCtx s.work.ctr) = .ok out d →
    exec .ecbEncryptBlock s = .next { s with
      work := { s.work with s0 := out }
      env := { s.env with
        calls := s.env.calls ++ [.ecbEncryptBlock s.host.keyCtx s.work.ctr], answers := s.env.answers.tail } }

/-- R190, R191, R261: a successful ctr_encrypt over a non-empty region writes the returned bytes over that region of
WBUF and the returned counter to CTR, and nothing else, as a call and inside CIPHER_PAYLOAD.fn; an empty
region makes no call and changes nothing. -/
def Obligations.CtrCallWritesRegion : Prop :=
  (∀ (off len : Word) (s : State) (c : Call) (ctr : Block) (d : List Byte), len.toNat % 16 = 0 → 0 < len.toNat →
    off.toNat + len.toNat ≤ s.cap →
    c = .ctrEncrypt s.host.keyCtx s.work.ctr (s.work.wbuf.readBytes off.toNat len.toNat) len →
    s.nextAnswer c = .ok ctr d → d.length = len.toNat →
    ∃ t, exec (.ctrEncrypt off len) s = .next t ∧ exec (.cipherPayloadFn off len) s = .next t
      ∧ t = { s.issue c with work := { s.work with ctr := ctr, wbuf := t.work.wbuf } }
      ∧ ∀ a, t.work.wbuf.get a = if off.toNat ≤ a ∧ a < off.toNat + len.toNat then d.getD (a - off.toNat) 0
          else s.work.wbuf.get a)
  ∧ (∀ (off : Word) (s : State), exec (.cipherPayloadFn off 0) s = .next s)

/-- R180, R181, R262: a successful cbc_mac over `WBUF[0, len)` returns 16 bytes, COMPUTE_TAG the first TAG_LEN of
them; the block's state does not change. -/
def Obligations.MacCallReturnsTag : Prop :=
  ∀ (len : Word) (s : State) (c : Call) (mac : Block) (d : List Byte), len.toNat % 16 = 0 → 16 ≤ len.toNat →
    len.toNat ≤ s.cap → c = .cbcMac s.host.keyCtx (s.work.wbuf.readBytes 0 len.toNat) len →
    s.nextAnswer c = .ok mac d →
    exec (.cbcMac len) s = .next ((s.issue c).respond (.bytes mac.toList))
    ∧ (s.host.tagLen.toNat ≤ 16 →
        exec (.computeTag len) s = .next ((s.issue c).respond (.bytes (mac.toList.take s.host.tagLen.toNat))))

/-- R263: keyslot_erase changes nothing when it succeeds; when it fails ERR becomes EngineFailure if no error stands. -/
def Obligations.EraseCallRecordsFailure : Prop :=
  ∀ (s : State) (c : Call), c = .keyslotErase s.host.keyCtx →
    (∀ b d, s.nextAnswer c = .ok b d → exec .keyslotErase s = .next (s.issue c))
    ∧ (s.nextAnswer c = .fail → exec .keyslotErase s = .next { s.issue c with
        result := { s.result with err := if s.result.err = none then some .engineFailure else s.result.err } })

/-! ### Phase steps -/

/-- R218: in IDLE the Orchestrator takes no step. -/
def Obligations.IdleTakesNoStep : Prop := ∀ s : State, exec .idle s = .next s

/-- R201: with legal parameters VALIDATE_ARGS writes Q and PLEN and goes to COMPOSE_FRAME; nothing else changes. -/
def Obligations.ValidateArgsAccepts : Prop :=
  ∀ s : State, s.ctl.cmdLatch &&& 0xFFFFFFF8#32 = 0#32 → s.host.tagLen.toNat ∈ [4, 6, 8, 10, 12, 14, 16] →
    7 ≤ s.host.nonceLen.toNat → s.host.nonceLen.toNat ≤ 13 →
    (s.isEnc = false → s.host.tagLen.toNat ≤ s.host.inputLen.toNat) →
    (if s.isEnc then s.host.inputLen.toNat else s.host.inputLen.toNat - s.host.tagLen.toNat)
      < 2 ^ (8 * (15 - s.host.nonceLen.toNat)) →
    ∃ t, exec .validateArgs s = .next t
      ∧ t = { s with work := { s.work with q := t.work.q, plen := t.work.plen },
                     ctl := { s.ctl with phase := .composeFrame } }
      ∧ t.work.q.toNat = 15 - s.host.nonceLen.toNat
      ∧ t.work.plen.toNat = if s.isEnc then s.host.inputLen.toNat else s.host.inputLen.toNat - s.host.tagLen.toNat

/-- R201, R281, R282, R290: the tests of VALIDATE_ARGS in order; the first that fails decides the error, and nothing
but the failure entry happens. -/
def Obligations.ValidateArgsRejectsInOrder : Prop :=
  ∀ s : State,
    (s.ctl.cmdLatch &&& 0xFFFFFFF8#32 ≠ 0#32 ∨ s.host.tagLen.toNat ∉ [4, 6, 8, 10, 12, 14, 16]
        ∨ s.host.nonceLen.toNat < 7 ∨ 13 < s.host.nonceLen.toNat
        ∨ (s.isEnc = false ∧ s.host.inputLen.toNat < s.host.tagLen.toNat) →
      exec .validateArgs s = .next (s.failureEntry .invalidArgument))
    ∧ (s.ctl.cmdLatch &&& 0xFFFFFFF8#32 = 0#32 → s.host.tagLen.toNat ∈ [4, 6, 8, 10, 12, 14, 16] →
      7 ≤ s.host.nonceLen.toNat → s.host.nonceLen.toNat ≤ 13 →
      (s.isEnc = false → s.host.tagLen.toNat ≤ s.host.inputLen.toNat) →
      2 ^ (8 * (15 - s.host.nonceLen.toNat))
        ≤ (if s.isEnc then s.host.inputLen.toNat else s.host.inputLen.toNat - s.host.tagLen.toNat) →
      exec .validateArgs s = .next (s.failureEntry .badLength))

/-- R113, R161 to R163, R165, R202: on encrypt, with legal parameters, a frame that fits CAP and an answered
ecb_encrypt_block, COMPOSE lays the frame out in WBUF, leaves every byte above it, writes the layout
registers, S0, CTR1 and KEY_USED, and nothing else; COMPOSE_FRAME then goes to TAG_PREPARE. -/
def Obligations.ComposeBuildsEncryptFrame : Prop :=
  ∀ (s : State) (m : Message) (c : Call) (out : Block) (d : List Byte), s.isEnc = true →
    s.host.tagLen.toNat ∈ [4, 6, 8, 10, 12, 14, 16] → 7 ≤ s.host.nonceLen.toNat → s.host.nonceLen.toNat ≤ 13 →
    s.work.plen.toNat < 2 ^ (8 * (15 - s.host.nonceLen.toNat)) →
    m = s.message s.work.plen.toNat → m.frame.length ≤ s.cap →
    c = .ecbEncryptBlock s.host.keyCtx (m.ctr 0) → s.nextAnswer c = .ok out d →
    ∃ t, exec .compose s = .next t
      ∧ exec .composeFrame s = .next { t with ctl := { t.ctl with phase := .tagPrepare } }
      ∧ t = { s.issue c with work := { s.work with
          keyUsed := true, s0 := out, ctr := m.ctr 1, wbuf := t.work.wbuf, aadPaddedLen := t.work.aadPaddedLen
          payloadOffset := t.work.payloadOffset, ppad := t.work.ppad, wbufLen := t.work.wbufLen } }
      ∧ t.work.aadPaddedLen.toNat = m.aadRegion.length ∧ t.work.payloadOffset.toNat = m.header.length
      ∧ t.work.ppad.toNat = (padTo16 m.payload).length ∧ t.work.wbufLen.toNat = m.frame.length
      ∧ ∀ a, t.work.wbuf.get a = if a < m.frame.length then m.frame.getD a 0 else s.work.wbuf.get a

/-- R114, R161, R162, R164, R165, R202: on decrypt COMPOSE lays out B0, the AAD region and the whole input unpadded,
where both ends fit CAP; WBUF_LEN is the unpadded end. -/
def Obligations.ComposeBuildsDecryptFrame : Prop :=
  ∀ (s : State) (m : Message) (c : Call) (out : Block) (d bs : List Byte), s.isEnc = false →
    s.host.tagLen.toNat ∈ [4, 6, 8, 10, 12, 14, 16] → 7 ≤ s.host.nonceLen.toNat → s.host.nonceLen.toNat ≤ 13 →
    s.work.plen.toNat < 2 ^ (8 * (15 - s.host.nonceLen.toNat)) →
    m = s.message s.work.plen.toNat → bs = m.header ++ s.host.inp.readBytes 0 s.host.inputLen.toNat →
    bs.length ≤ s.cap → m.frame.length ≤ s.cap →
    c = .ecbEncryptBlock s.host.keyCtx (m.ctr 0) → s.nextAnswer c = .ok out d →
    ∃ t, exec .compose s = .next t
      ∧ exec .composeFrame s = .next { t with ctl := { t.ctl with phase := .tagPrepare } }
      ∧ t = { s.issue c with work := { s.work with
          keyUsed := true, s0 := out, ctr := m.ctr 1, wbuf := t.work.wbuf, aadPaddedLen := t.work.aadPaddedLen
          payloadOffset := t.work.payloadOffset, ppad := t.work.ppad, wbufLen := t.work.wbufLen } }
      ∧ t.work.aadPaddedLen.toNat = m.aadRegion.length ∧ t.work.payloadOffset.toNat = m.header.length
      ∧ t.work.ppad.toNat = (padTo16 m.payload).length ∧ t.work.wbufLen.toNat = bs.length
      ∧ ∀ a, t.work.wbuf.get a = if a < bs.length then bs.getD a 0 else s.work.wbuf.get a

/-- R162 to R165, R283: a frame that does not fit CAP is TooBig, on both paths; no call is issued, KEY_USED keeps its
value, and only WBUF, AAD_PADDED_LEN, ERR and PHASE may have been written. -/
def Obligations.OversizeFrameIsTooBig : Prop :=
  ∀ (s : State) (m : Message), s.host.tagLen.toNat ∈ [4, 6, 8, 10, 12, 14, 16] → 7 ≤ s.host.nonceLen.toNat →
    s.host.nonceLen.toNat ≤ 13 → s.work.plen.toNat < 2 ^ (8 * (15 - s.host.nonceLen.toNat)) →
    m = s.message s.work.plen.toNat →
    s.cap < m.frame.length ∨ (s.isEnc = false ∧ s.cap < m.header.length + s.host.inputLen.toNat) →
    ∃ t, exec .composeFrame s = .next t
      ∧ t = { s with
          work := { s.work with wbuf := t.work.wbuf, aadPaddedLen := t.work.aadPaddedLen }
          result := { s.result with err := if s.result.err = none then some .tooBig else s.result.err }
          ctl := { s.ctl with phase := .cleanup } }

/-- R204: TAG_PREPARE on encrypt computes the MAC over `WBUF[0, WBUF_LEN)` and keeps its first TAG_LEN bytes in RAW_TAG,
the rest zero; nothing else changes. -/
def Obligations.TagPrepareEncComputesRawTag : Prop :=
  ∀ (s : State) (c : Call) (mac : Block) (d : List Byte), s.work.wbufLen.toNat % 16 = 0 →
    16 ≤ s.work.wbufLen.toNat → s.work.wbufLen.toNat ≤ s.cap → s.host.tagLen.toNat ≤ 16 →
    c = .cbcMac s.host.keyCtx (s.work.wbuf.readBytes 0 s.work.wbufLen.toNat) s.work.wbufLen →
    s.nextAnswer c = .ok mac d →
    ∃ t, exec .tagPrepareEnc s = .next t
      ∧ t = { s.issue c with work := { s.work with rawTag := t.work.rawTag },
                             ctl := { s.ctl with phase := .cipherPayload } }
      ∧ ∀ i, i < 16 → t.work.rawTag.toList.getD i 0 = if i < s.host.tagLen.toNat then mac.toList.getD i 0 else 0

/-- R205: TAG_PREPARE on decrypt unmasks the received tag into CAND_TAG, zeroes its bytes in WBUF, sets WBUF_LEN to the
end of the frame, PAYLOAD_OFFSET + PPAD whatever CAP is; nothing else changes. -/
def Obligations.TagPrepareDecUnmasksTag : Prop :=
  ∀ s : State, s.host.tagLen.toNat ≤ 16 →
    s.host.tagLen = 0 ∨ s.work.payloadOffset.toNat + s.work.plen.toNat + s.host.tagLen.toNat ≤ s.cap →
    s.work.payloadOffset.toNat + s.work.ppad.toNat < 2 ^ 32 →
    ∃ t, exec .tagPrepareDec s = .next t
      ∧ t = { s with work := { s.work with candTag := t.work.candTag, wbuf := t.work.wbuf, wbufLen := t.work.wbufLen },
                     ctl := { s.ctl with phase := .cipherPayload } }
      ∧ t.work.wbufLen.toNat = s.work.payloadOffset.toNat + s.work.ppad.toNat
      ∧ (∀ i, i < 16 → t.work.candTag.toList.getD i 0 = if i < s.host.tagLen.toNat then
          s.work.wbuf.get (s.work.payloadOffset.toNat + s.work.plen.toNat + i) ^^^ s.work.s0.toList.getD i 0 else 0)
      ∧ ∀ a, t.work.wbuf.get a =
          if s.work.payloadOffset.toNat + s.work.plen.toNat ≤ a
            ∧ a < s.work.payloadOffset.toNat + s.work.plen.toNat + s.host.tagLen.toNat then 0 else s.work.wbuf.get a

/-- R206: CIPHER_PAYLOAD enciphers the payload region by one ctr_encrypt call, or by none if PPAD = 0, and goes to
TAG_FINALIZE on encrypt, TAG_VERIFY on decrypt. -/
def Obligations.CipherPayloadEnciphersRegion : Prop :=
  ∀ s : State,
    (s.work.ppad = 0 → exec .cipherPayload s
      = .next { s with ctl := { s.ctl with phase := if s.isEnc then .tagFinalize else .tagVerify } })
    ∧ ∀ (c : Call) (ctr : Block) (d : List Byte), s.work.ppad.toNat % 16 = 0 → 0 < s.work.ppad.toNat →
      s.work.payloadOffset.toNat + s.work.ppad.toNat ≤ s.cap →
      c = .ctrEncrypt s.host.keyCtx s.work.ctr
        (s.work.wbuf.readBytes s.work.payloadOffset.toNat s.work.ppad.toNat) s.work.ppad →
      s.nextAnswer c = .ok ctr d → d.length = s.work.ppad.toNat →
      ∃ t, exec .cipherPayload s = .next t
        ∧ t = { s.issue c with work := { s.work with ctr := ctr, wbuf := t.work.wbuf },
                               ctl := { s.ctl with phase := if s.isEnc then .tagFinalize else .tagVerify } }
        ∧ ∀ a, t.work.wbuf.get a =
            if s.work.payloadOffset.toNat ≤ a ∧ a < s.work.payloadOffset.toNat + s.work.ppad.toNat then
              d.getD (a - s.work.payloadOffset.toNat) 0 else s.work.wbuf.get a

/-- R207: TAG_FINALIZE masks the first TAG_LEN bytes of RAW_TAG with S0 into MTAG, the rest zero, and goes to
EMIT_RESULT; nothing else changes. -/
def Obligations.TagFinalizeMasksTag : Prop :=
  ∀ s : State, s.host.tagLen.toNat ≤ 16 →
    ∃ t, exec .tagFinalize s = .next t
      ∧ t = { s with work := { s.work with mtag := t.work.mtag }, ctl := { s.ctl with phase := .emitResult } }
      ∧ ∀ i, i < 16 → t.work.mtag.toList.getD i 0 = if i < s.host.tagLen.toNat then
          s.work.rawTag.toList.getD i 0 ^^^ s.work.s0.toList.getD i 0 else 0

/-- R208, R285: TAG_VERIFY zeroes the padding, computes the expected tag, compares it with the candidate; equal tags go
to EMIT_RESULT with VERIFY_OK = 1, different ones raise AuthenticationFailed with VERIFY_OK = 0. OUT is not
written. -/
def Obligations.TagVerifyComparesTags : Prop :=
  ∀ (s u : State) (c : Call) (mac : Block) (d : List Byte), s.paddingFits → s.work.wbufLen.toNat % 16 = 0 →
    16 ≤ s.work.wbufLen.toNat → s.work.wbufLen.toNat ≤ s.cap → s.host.tagLen.toNat ≤ 16 →
    u = s.zeroWbuf (s.work.payloadOffset.toNat + s.work.plen.toNat) (s.work.ppad.toNat - s.work.plen.toNat) →
    c = .cbcMac s.host.keyCtx (u.work.wbuf.readBytes 0 s.work.wbufLen.toNat) s.work.wbufLen →
    u.nextAnswer c = .ok mac d →
    (∀ a, u.work.wbuf.get a = if s.work.payloadOffset.toNat + s.work.plen.toNat ≤ a
        ∧ a < s.work.payloadOffset.toNat + s.work.ppad.toNat then 0 else s.work.wbuf.get a)
    ∧ ∃ t, exec .tagVerify s = .next t
      ∧ (∀ i, i < 16 → t.work.rawTag.toList.getD i 0 = if i < s.host.tagLen.toNat then mac.toList.getD i 0 else 0)
      ∧ (s.work.candTag.toList.take s.host.tagLen.toNat = mac.toList.take s.host.tagLen.toNat →
          t = { u.issue c with work := { u.work with rawTag := t.work.rawTag, verifyOk := true },
                               ctl := { s.ctl with phase := .emitResult } })
      ∧ (s.work.candTag.toList.take s.host.tagLen.toNat ≠ mac.toList.take s.host.tagLen.toNat →
          t = { u.issue c with
                work := { u.work with rawTag := t.work.rawTag, verifyOk := false }
                result := { s.result with err := if s.result.err = none then some .authenticationFailed
                                                 else s.result.err }
                ctl := { s.ctl with phase := .cleanup } })

/-- R115, R209: EMIT_RESULT on encrypt writes ciphertext and masked tag to OUT, their length to OUT_LEN; every other
byte of OUT and everything else is unchanged. -/
def Obligations.EmitResultEncWritesOutput : Prop :=
  ∀ s : State, s.host.tagLen.toNat ≤ 16 →
    s.work.plen = 0 ∨ s.work.payloadOffset.toNat + s.work.plen.toNat ≤ s.cap →
    s.work.plen.toNat + s.host.tagLen.toNat ≤ s.cap →
    ∃ t, exec .emitResultEnc s = .next t
      ∧ t = { s with result := { s.result with out := t.result.out, outLen := t.result.outLen },
                     ctl := { s.ctl with phase := .cleanup } }
      ∧ t.result.outLen.toNat = s.work.plen.toNat + s.host.tagLen.toNat
      ∧ ∀ a, t.result.out.get a =
          if a < s.work.plen.toNat then s.work.wbuf.get (s.work.payloadOffset.toNat + a)
          else if a < s.work.plen.toNat + s.host.tagLen.toNat then s.work.mtag.toList.getD (a - s.work.plen.toNat) 0
          else s.result.out.get a

/-- R116, R210: EMIT_RESULT on decrypt writes the plaintext to OUT and PLEN to OUT_LEN; everything else is unchanged. -/
def Obligations.EmitResultDecWritesPlaintext : Prop :=
  ∀ s : State, s.work.plen = 0 ∨ s.work.payloadOffset.toNat + s.work.plen.toNat ≤ s.cap →
    ∃ t, exec .emitResultDec s = .next t
      ∧ t = { s with result := { s.result with out := t.result.out, outLen := s.work.plen },
                     ctl := { s.ctl with phase := .cleanup } }
      ∧ ∀ a, t.result.out.get a = if a < s.work.plen.toNat then s.work.wbuf.get (s.work.payloadOffset.toNat + a)
          else s.result.out.get a

/-- R211 to R214: CLEANUP with no erase to make, or with one that succeeds or fails: every working register and CMD_LATCH
become zero, WBUF reads zero over CAP, a failed command's OUT reads zero and OUT_LEN is 0, BUSY falls, DONE
rises, PHASE is IDLE; a failed erase is EngineFailure unless an error stood. -/
def Obligations.CleanupEndsCommand : Prop :=
  ∀ (s : State) (c : Call), c = .keyslotErase s.host.keyCtx →
    ((s.work.keyUsed = false ∨ s.keepKey = true) ∨ s.nextAnswer c ≠ .noReturn) →
    ∃ t, exec .cleanup s = .next t
      ∧ t = { s with
          env := if s.work.keyUsed = true ∧ s.keepKey = false then (s.issue c).env else s.env
          work := { Working.zero with wbuf := t.work.wbuf }
          ctl := { phase := .idle, cmdLatch := 0 }
          result := { s.result with busy := false, done := true, err := t.result.err, outLen := t.result.outLen,
                                    out := t.result.out } }
      ∧ t.result.err = (if s.result.err = none ∧ s.work.keyUsed = true ∧ s.keepKey = false ∧ s.nextAnswer c = .fail
          then some .engineFailure else s.result.err)
      ∧ (∀ a, t.work.wbuf.get a = if a < s.cap then 0 else s.work.wbuf.get a)
      ∧ (t.result.err = none → t.result.out = s.result.out ∧ t.result.outLen = s.result.outLen)
      ∧ (t.result.err ≠ none → t.result.outLen = 0
          ∧ ∀ a, t.result.out.get a = if a < s.cap then 0 else s.result.out.get a)

/-! ### The whole machine -/

/-- R54, R55, R311: the state after reset meets the invariant. -/
def Obligations.ResetMeetsInvariant : Prop := State.reset.Inv

/-- R30, R33, R35, R50, R54, R79, R102, R168, R201, R213, R215, R220, R284, R288: every step keeps the invariant: canonical byte
spaces inside their capacities, BUSY exactly when PHASE is not IDLE, a zero resting state, the frame's layout,
OUT_LEN at most CAP and OUT zero from it on, no output before EMIT_RESULT or after a failure, BadState never raised
(so no access leaves its space). -/
def Obligations.StepKeepsInvariant : Prop := ∀ s t : State, s.Inv → step s = .next t → t.Inv

/-- R79, R200: in every state a step is a next state and neither a fault nor a refusal, whatever the event and whatever the
Engine answers. That a step whose call never returns, which R200 says never ends, is a next state with a flag set is
the model's entry 4; that a corrupted state ends in BadState is its entry 9. -/
def Obligations.StepNeverStops : Prop := ∀ s : State, ∃ t, step s = .next t

/-- R85, R313: KEY_CTX, the parameter registers, NONCE, AAD and IN change only by a host write accepted while BUSY = 0, or
by reset. -/
def Obligations.OnlyHostChangesHostState : Prop :=
  ∀ s t : State, step s = .next t → t.host ≠ s.host →
    s.nextEvent = .reset
    ∨ (s.result.busy = false ∧ ((∃ reg v, s.nextEvent = .hwr reg v) ∨ ∃ sp off v, s.nextEvent = .hwrb sp off v))

/-- R220: a byte of OUT becomes non-zero only in EMIT_RESULT, and on decrypt only with VERIFY_OK = 1. -/
def Obligations.OutputOnlyAfterVerification : Prop :=
  ∀ (s t : State) (a : Nat), s.Inv → step s = .next t → t.result.out.get a ≠ s.result.out.get a →
    t.result.out.get a ≠ 0 →
    s.ctl.phase = .emitResult ∧ (s.isEnc = true ∨ s.work.verifyOk = true)

/-- R221, R321: a phase step that is not stuck brings the command nearer to IDLE, so a command takes at most 7 phase
steps; a step in IDLE stays there. -/
def Obligations.PhaseStepMakesProgress : Prop :=
  ∀ s t : State, s.Inv → s.nextEvent = .tick → s.hung = false → step s = .next t →
    t.hung = true ∨ t.ctl.phase.remaining < s.ctl.phase.remaining ∨ (s.ctl.phase = .idle ∧ t = s.takeEvent)

/-- R57: what a host read, a poll or the end of CCM_PROCESS returns does not depend on the working registers, WBUF,
PHASE or CMD_LATCH, nor, while BUSY, on OUT or OUT_LEN: from two states that differ only there, the reply is the
same. -/
def Obligations.HostReadsHideWorkingState : Prop :=
  ∀ (s t s' t' : State), t = { s with work := t.work, ctl := t.ctl, result := { s.result with
      out := t.result.out, outLen := t.result.outLen } } →
    (s.result.busy = false → t.result.out = s.result.out ∧ t.result.outLen = s.result.outLen) →
    (s.nextEvent = .poll ∨ s.nextEvent = .ccmReturn ∨ (∃ r, s.nextEvent = .hrd r) ∨ ∃ sp o, s.nextEvent = .hrdb sp o) →
    step s = .next s' → step t = .next t' → s'.env = t'.env

/-- R115, R216, R267, R269, for an Engine that meets the reference contracts over any block function E: a whole encrypt
command from a resting state, START and its 7 phase steps, issues exactly the calls of the encrypt path and ends
with DONE, ERR = 0 and the wire format in OUT, the rest of OUT zero. That the phase steps follow START with nothing
between them, and that the answers are recorded ones, is the run the model's entries 16 and 2 give. -/
def Obligations.EncryptCommandEmitsWireFormat : Prop :=
  ∀ (E : Block → Block) (s : State) (m : Message) (cs : List Call) (keep : Bool), s.Inv → s.ctl.phase = .idle →
    s.env.events = [.hwr 0 (cmdWord 0 keep true true)] →
    s.host.tagLen.toNat ∈ [4, 6, 8, 10, 12, 14, 16] → 7 ≤ s.host.nonceLen.toNat → s.host.nonceLen.toNat ≤ 13 →
    s.host.inputLen.toNat < 2 ^ (8 * (15 - s.host.nonceLen.toNat)) →
    m = s.message s.host.inputLen.toNat → m.frame.length ≤ s.cap →
    cs = [.ecbEncryptBlock s.host.keyCtx (m.ctr 0), .cbcMac s.host.keyCtx m.frame (BitVec.ofNat 32 m.frame.length)]
      ++ (if m.payload = [] then []
          else [.ctrEncrypt s.host.keyCtx (m.ctr 1) (padTo16 m.payload) (BitVec.ofNat 32 (padTo16 m.payload).length)])
      ++ (if keep then [] else [.keyslotErase s.host.keyCtx]) →
    s.env.answers = cs.map (referenceAnswer E) →
    ∃ t : State, Sys2Proof.core.run 8 s = .next t ∧ t.result.status = 2#32 ∧ t.ctl.phase = .idle
      ∧ t.env.calls = s.env.calls ++ cs
      ∧ t.result.outLen.toNat = m.payload.length + s.host.tagLen.toNat
      ∧ t.result.out.readBytes 0 t.result.outLen.toNat = m.wire E
      ∧ ∀ a, t.result.outLen.toNat ≤ a → t.result.out.get a = 0

/-- R116, R217, R267, R269 and the round trip of 95_test_vectors.md 1.5, for an Engine that meets the reference
contracts over any block function E, a permutation or not: decrypting the wire format of a message from a resting
state issues exactly the calls of the decrypt path and ends with DONE, ERR = 0 and the message's payload in OUT. The
schedule and the recorded answers are those of the model's entries 16 and 2. -/
def Obligations.DecryptCommandReturnsPlaintext : Prop :=
  ∀ (E : Block → Block) (s : State) (m : Message) (cs : List Call) (keep : Bool), s.Inv → s.ctl.phase = .idle →
    s.env.events = [.hwr 0 (cmdWord 0 keep false true)] →
    s.host.tagLen.toNat ∈ [4, 6, 8, 10, 12, 14, 16] → 7 ≤ s.host.nonceLen.toNat → s.host.nonceLen.toNat ≤ 13 →
    m.payload.length < 2 ^ (8 * (15 - s.host.nonceLen.toNat)) →
    m = { s.message 0 with payload := m.payload } →
    s.host.inputLen.toNat = m.payload.length + s.host.tagLen.toNat →
    m.header.length + s.host.inputLen.toNat ≤ s.cap →
    s.host.inp.readBytes 0 s.host.inputLen.toNat = m.wire E →
    cs = [.ecbEncryptBlock s.host.keyCtx (m.ctr 0)]
      ++ (if m.payload = [] then []
          else [.ctrEncrypt s.host.keyCtx (m.ctr 1) (padTo16 (m.ciphertext E))
            (BitVec.ofNat 32 (padTo16 m.payload).length)])
      ++ [.cbcMac s.host.keyCtx m.frame (BitVec.ofNat 32 m.frame.length)]
      ++ (if keep then [] else [.keyslotErase s.host.keyCtx]) →
    s.env.answers = cs.map (referenceAnswer E) →
    ∃ t : State, Sys2Proof.core.run 8 s = .next t ∧ t.result.status = 2#32 ∧ t.ctl.phase = .idle
      ∧ t.env.calls = s.env.calls ++ cs
      ∧ t.result.outLen.toNat = m.payload.length ∧ t.result.out.readBytes 0 m.payload.length = m.payload
      ∧ ∀ a, m.payload.length ≤ a → t.result.out.get a = 0
end

