-- ==== Sys2Proof/Laws/Bytes.lean ====
section
/-! SUPPORT. The laws of byte strings, big-endian integers and checked arithmetic (R11, R12). -/

namespace Sys2Proof.Machine

@[simp] theorem length_be (v k : Nat) : (be v k).length = k := by
  induction k generalizing v with
  | zero => rfl
  | succ k ih => simp [be, ih]

@[simp] theorem length_fitBytes (n : Nat) (l : List Byte) : (fitBytes n l).length = n := by
  simp [fitBytes]

/-- Byte i of a fitted string: the string's byte, or zero past its end. -/
theorem getD_fitBytes (n : Nat) (l : List Byte) (i : Nat) :
    (fitBytes n l).getD i 0 = if i < n then l.getD i 0 else 0 := by
  unfold fitBytes
  simp only [List.getD_eq_getElem?_getD, List.getElem?_take]
  split
  · rw [List.getElem?_append]
    split
    · rfl
    · next h =>
      rw [List.getElem?_replicate]
      rw [List.getElem?_eq_none (by omega)]
      split <;> rfl
  · rfl

/-- A string of exactly n bytes is unchanged by fitting. -/
theorem fitBytes_of_length {n : Nat} {l : List Byte} (h : l.length = n) : fitBytes n l = l := by
  unfold fitBytes
  rw [List.take_append_of_le_length (by omega), ← h, List.take_length]

@[simp] theorem toList_fit (n : Nat) (l : List Byte) : (fit n l).toList = fitBytes n l := rfl

theorem beValue_append (bs : List Byte) (b : Byte) : beValue (bs ++ [b]) = 256 * beValue bs + b.toNat := by
  simp [beValue]

/-- Reading back a big-endian string gives the integer modulo its width. -/
theorem beValue_be (v k : Nat) : beValue (be v k) = v % 256 ^ k := by
  induction k generalizing v with
  | zero => simp [be, beValue, Nat.mod_one]
  | succ k ih =>
    have hk : 256 ^ (k + 1) = 256 * 256 ^ k := by ring
    rw [be, beValue_append, ih, BitVec.toNat_ofNat, hk, Nat.mod_mul]
    show 256 * _ + v % 256 = _
    omega

/-- `cadd32`: the exact sum, or TooBig. -/
theorem addChecked_cases (a b : Word) :
    (a.toNat + b.toNat < 2 ^ 32 ∧ ∃ w, addChecked a b = .ok w ∧ w.toNat = a.toNat + b.toNat) ∨
    (2 ^ 32 ≤ a.toNat + b.toNat ∧ addChecked a b = .error .tooBig) := by
  unfold addChecked
  split
  · next h => exact .inl ⟨h, _, rfl, by rw [BitVec.toNat_add]; exact Nat.mod_eq_of_lt h⟩
  · next h => exact .inr ⟨by omega, rfl⟩

/-- `ceil16`: the least multiple of 16 not below x, or TooBig. -/
theorem roundUp16_cases (x : Word) :
    (x.toNat + 15 < 2 ^ 32 ∧ ∃ w, roundUp16 x = .ok w ∧ w.toNat % 16 = 0 ∧ x.toNat ≤ w.toNat ∧ w.toNat < x.toNat + 16) ∨
    (2 ^ 32 ≤ x.toNat + 15 ∧ roundUp16 x = .error .tooBig) := by
  unfold roundUp16
  rcases addChecked_cases x 15 with ⟨h, y, e, hy⟩ | ⟨h, e⟩
  · refine .inl ⟨by simpa using h, y - BitVec.ofNat 32 (y.toNat % 16), by rw [e]; rfl, ?_⟩
    have h15 : (15 : Word).toNat = 15 := rfl
    rw [h15] at hy h
    have hm : (BitVec.ofNat 32 (y.toNat % 16)).toNat = y.toNat % 16 := by
      rw [BitVec.toNat_ofNat]; omega
    rw [BitVec.toNat_sub_of_le (by rw [BitVec.le_def, hm]; exact Nat.mod_le _ _), hm]
    omega
  · exact .inr ⟨by simpa using h, by rw [e]; rfl⟩

/-- The capacity is a multiple of 16 from 32 to 2^32 - 16 (R6). -/
theorem cap_bounds (s : State) : s.cap % 16 = 0 ∧ 32 ≤ s.cap ∧ s.cap ≤ 2 ^ 32 - 16 := by
  have := s.capUnits.isLt
  unfold State.cap
  omega

end Sys2Proof.Machine
end

