-- ==== Sys2Proof/Laws/Memory.lean ====
section
/-! SUPPORT. The laws of the byte spaces: a read after a write, every other byte unchanged, the canonical form
and the bound kept by every operation. -/

namespace Sys2Proof.Machine

namespace Memory

@[simp] theorem get_nil (x : Nat) : Memory.get [] x = 0 := rfl

theorem get_cons (c : Host.Cell) (m : Memory) (x : Nat) :
    Memory.get (c :: m) x = if x = c.1 then c.2 else Memory.get m x := rfl

/-- An offset that is not listed reads 0. -/
theorem get_eq_zero_of_unlisted (m : Memory) (x : Nat) (h : ∀ c ∈ m, c.1 ≠ x) : m.get x = 0 := by
  induction m with
  | nil => rfl
  | cons c m ih =>
    rw [get_cons, if_neg (fun e => h c (by simp) e.symm), ih (fun d hd => h d (by simp [hd]))]

/-- Filtering by offset keeps the bytes of the offsets kept and zeroes the others. -/
theorem get_filter (m : Memory) (p : Nat → Bool) (x : Nat) :
    Memory.get (m.filter (fun c => p c.1)) x = if p x then m.get x else 0 := by
  induction m with
  | nil => simp
  | cons c m ih =>
    by_cases hc : p c.1 <;> by_cases hx : x = c.1
    · subst hx; simp [get_cons, hc]
    · simp [hc, get_cons, hx, ih]
    · subst hx; simp [hc, ih]
    · simp [hc, get_cons, hx, ih]

theorem get_insert_same (m : Memory) (x : Nat) (v : Byte) (h : ∀ c ∈ m, c.1 ≠ x) :
    (Memory.insert m x v).get x = v := by
  induction m with
  | nil => simp [Memory.insert, get_cons]
  | cons c m ih =>
    have hc : x ≠ c.1 := fun e => h c (by simp) e.symm
    simp only [Memory.insert]
    split
    · simp [get_cons]
    · rw [get_cons, if_neg hc]; exact ih (fun d hd => h d (by simp [hd]))

theorem get_insert_other (m : Memory) (x y : Nat) (v : Byte) (h : y ≠ x) :
    (Memory.insert m x v).get y = m.get y := by
  induction m with
  | nil => simp [Memory.insert, get_cons, h]
  | cons c m ih =>
    simp only [Memory.insert]
    split
    · simp [get_cons, h]
    · simp only [get_cons, ih]

/-- A read after a write of one byte. -/
theorem get_set (m : Memory) (x y : Nat) (v : Byte) : (m.set x v).get y = if y = x then v else m.get y := by
  have hf := get_filter m (fun a => decide (a ≠ x)) y
  unfold Memory.set
  split
  · next hv => rw [hf]; by_cases h : y = x <;> simp [h, hv]
  · by_cases h : y = x
    · subst h; rw [if_pos rfl]; exact get_insert_same _ _ _ (by simp)
    · rw [get_insert_other _ _ _ _ h, hf]; simp [h]

/-- `MemFill` with zeros: the range reads 0, every other byte is unchanged. -/
theorem get_zeroFill (m : Memory) (x n y : Nat) :
    (m.zeroFill x n).get y = if x ≤ y ∧ y < x + n then 0 else m.get y := by
  have hf := get_filter m (fun a => decide (a < x) || decide (x + n ≤ a)) y
  unfold Memory.zeroFill
  rw [hf]
  by_cases h : x ≤ y ∧ y < x + n
  · have h1 : ¬ y < x := by omega
    have h2 : ¬ x + n ≤ y := by omega
    simp [h, h2]
  · have : y < x ∨ x + n ≤ y := by omega
    simp [h, this]

/-- `MemWrite`: the range reads the bytes written, every other byte is unchanged. -/
theorem get_writeBytes (m : Memory) (x : Nat) (bs : List Byte) (y : Nat) :
    (m.writeBytes x bs).get y = if x ≤ y ∧ y < x + bs.length then bs.getD (y - x) 0 else m.get y := by
  induction bs generalizing m x with
  | nil => simp only [Memory.writeBytes, List.length_nil]; rw [if_neg (by omega)]
  | cons b bs ih =>
    simp only [Memory.writeBytes, ih, get_set, List.length_cons]
    by_cases h1 : y = x
    · subst h1
      rw [if_neg (by omega), if_pos rfl, if_pos (by omega)]
      simp
    · by_cases h2 : x + 1 ≤ y ∧ y < x + 1 + bs.length
      · rw [if_pos h2, if_pos (by omega)]
        obtain ⟨k, rfl⟩ : ∃ k, y = x + (k + 1) := ⟨y - x - 1, by omega⟩
        have e1 : x + (k + 1) - (x + 1) = k := by omega
        have e2 : x + (k + 1) - x = k + 1 := by omega
        rw [e1, e2, List.getD_cons_succ]
      · rw [if_neg h2, if_neg h1, if_neg (by omega)]

@[simp] theorem length_readBytes (m : Memory) (x n : Nat) : (m.readBytes x n).length = n := by
  induction n generalizing x with
  | zero => rfl
  | succ n ih => simp [Memory.readBytes, ih]

/-- Byte i of `MemRead`. -/
theorem getD_readBytes (m : Memory) (x n i : Nat) : (m.readBytes x n).getD i 0 = if i < n then m.get (x + i) else 0 := by
  induction n generalizing x i with
  | zero => simp [Memory.readBytes]
  | succ n ih =>
    cases i with
    | zero => simp [Memory.readBytes]
    | succ i =>
      simp only [Memory.readBytes, List.getD_cons_succ, ih, Nat.add_lt_add_iff_right]
      have : x + 1 + i = x + (i + 1) := by omega
      rw [this]

/-- A read of bytes just written. -/
theorem readBytes_writeBytes (m : Memory) (x : Nat) (bs : List Byte) :
    (m.writeBytes x bs).readBytes x bs.length = bs := by
  apply List.ext_getElem (by simp)
  intro i h1 h2
  have := getD_readBytes (m.writeBytes x bs) x bs.length i
  rw [List.getD_eq_getElem _ _ (by simpa using h2), get_writeBytes, if_pos h2, if_pos (by omega)] at this
  rw [this, Nat.add_sub_cancel_left, List.getD_eq_getElem _ _ h2]

/-! ### The canonical form and the bound -/

theorem mem_insert (m : Memory) (x : Nat) (v : Byte) (c : Host.Cell) :
    c ∈ Memory.insert m x v ↔ c = (x, v) ∨ c ∈ m := by
  induction m with
  | nil => simp [Memory.insert]
  | cons d m ih =>
    simp only [Memory.insert]
    split
    · simp
    · simp only [List.mem_cons, ih]; tauto

theorem insert_pairwise (m : Memory) (x : Nat) (v : Byte) (hm : m.Pairwise (fun c d => c.1 < d.1))
    (hx : ∀ c ∈ m, c.1 ≠ x) : (Memory.insert m x v).Pairwise (fun c d => c.1 < d.1) := by
  induction m with
  | nil => simp [Memory.insert]
  | cons c m ih =>
    rw [List.pairwise_cons] at hm
    have hc := hx c (by simp)
    simp only [Memory.insert]
    split
    · next h =>
      rw [List.pairwise_cons, List.pairwise_cons]
      refine ⟨fun d hd => ?_, hm⟩
      rcases List.mem_cons.1 hd with rfl | hd
      · exact h
      · exact Nat.lt_trans h (hm.1 d hd)
    · next h =>
      rw [List.pairwise_cons]
      refine ⟨fun d hd => ?_, ih hm.2 (fun d hd => hx d (by simp [hd]))⟩
      rcases (mem_insert m x v d).1 hd with rfl | hd
      · show c.1 < x; omega
      · exact hm.1 d hd

theorem filter_wf (m : Memory) (p : Host.Cell → Bool) (h : m.wf) : Memory.wf (m.filter p) :=
  ⟨h.1.filter p, fun c hc => h.2 c (List.mem_filter.1 hc).1⟩

theorem filter_below (m : Memory) (p : Host.Cell → Bool) (n : Nat) (h : m.below n) : Memory.below (m.filter p) n :=
  fun c hc => h c (List.mem_filter.1 hc).1

/-- Writing one byte keeps the canonical form. -/
theorem set_wf (m : Memory) (x : Nat) (v : Byte) (h : m.wf) : (m.set x v).wf := by
  unfold Memory.set
  split
  · exact filter_wf m _ h
  · next hv =>
    have hf := filter_wf m (fun c => c.1 ≠ x) h
    refine ⟨insert_pairwise _ _ _ hf.1 (by simp), fun c hc => ?_⟩
    rcases (mem_insert _ _ _ c).1 hc with rfl | hc
    · exact hv
    · exact hf.2 c hc

theorem set_below (m : Memory) (x : Nat) (v : Byte) (n : Nat) (h : m.below n) (hx : x < n) : (m.set x v).below n := by
  unfold Memory.set
  split
  · exact filter_below m _ n h
  · intro c hc
    rcases (mem_insert _ _ _ c).1 hc with rfl | hc
    · exact hx
    · exact filter_below m _ n h c hc

/-- A zero fill keeps the canonical form. -/
theorem zeroFill_wf (m : Memory) (x n : Nat) (h : m.wf) : (m.zeroFill x n).wf := filter_wf m _ h

theorem zeroFill_below (m : Memory) (x k n : Nat) (h : m.below n) : (m.zeroFill x k).below n := filter_below m _ n h

/-- A zero fill of a whole space empties it. -/
theorem zeroFill_all (m : Memory) (n : Nat) (h : m.below n) : m.zeroFill 0 n = [] := by
  unfold Memory.zeroFill
  rw [List.filter_eq_nil_iff]
  intro c hc
  have := h c hc
  simp
  omega

/-- Writing a byte string keeps the canonical form. -/
theorem writeBytes_wf (m : Memory) (x : Nat) (bs : List Byte) (h : m.wf) : (m.writeBytes x bs).wf := by
  induction bs generalizing m x with
  | nil => exact h
  | cons b bs ih => exact ih _ _ (set_wf m x b h)

theorem writeBytes_below (m : Memory) (x : Nat) (bs : List Byte) (n : Nat) (h : m.below n) (hx : x + bs.length ≤ n) :
    (m.writeBytes x bs).below n := by
  induction bs generalizing m x with
  | nil => exact h
  | cons b bs ih =>
    rw [List.length_cons] at hx
    exact ih _ _ (set_below m x b n h (by omega)) (by omega)

theorem zeroFill_ok (m : Memory) (x k n : Nat) (h : m.ok n) : (m.zeroFill x k).ok n :=
  ⟨zeroFill_wf m x k h.1, zeroFill_below m x k n h.2⟩

theorem set_ok (m : Memory) (x : Nat) (v : Byte) (n : Nat) (h : m.ok n) (hx : x < n) : (m.set x v).ok n :=
  ⟨set_wf m x v h.1, set_below m x v n h.2 hx⟩

theorem writeBytes_ok (m : Memory) (x : Nat) (bs : List Byte) (n : Nat) (h : m.ok n) (hx : x + bs.length ≤ n) :
    (m.writeBytes x bs).ok n :=
  ⟨writeBytes_wf m x bs h.1, writeBytes_below m x bs n h.2 hx⟩

theorem nil_ok (n : Nat) : Memory.ok [] n := ⟨⟨List.Pairwise.nil, by simp⟩, by simp⟩

end Memory

/-- Every byte space of the reset state is canonical and empty. -/
theorem reset_spacesOk : State.reset.spacesOk :=
  ⟨Memory.nil_ok _, Memory.nil_ok _, Memory.nil_ok _, Memory.nil_ok _, Memory.nil_ok _⟩

end Sys2Proof.Machine
end

