-- ==== Sys2Proof/Laws/State.lean ====
section
/-! SUPPORT. What each named update of the state writes and what it leaves, one lemma per part of the state. -/

namespace Sys2Proof.Machine

variable (s : State)

@[simp] theorem failureEntry_capUnits (e : CcmError) : (s.failureEntry e).capUnits = s.capUnits := rfl
@[simp] theorem failureEntry_host (e : CcmError) : (s.failureEntry e).host = s.host := rfl
@[simp] theorem failureEntry_result (e : CcmError) : (s.failureEntry e).result = { s.result with err := s.result.err.or (some e) } := rfl
@[simp] theorem failureEntry_ctl (e : CcmError) : (s.failureEntry e).ctl = { s.ctl with phase := .cleanup } := rfl
@[simp] theorem failureEntry_work (e : CcmError) : (s.failureEntry e).work = s.work := rfl
@[simp] theorem failureEntry_hung (e : CcmError) : (s.failureEntry e).hung = s.hung := rfl
@[simp] theorem failureEntry_env (e : CcmError) : (s.failureEntry e).env = s.env := rfl
@[simp] theorem failureEntry_cap (e : CcmError) : (s.failureEntry e).cap = s.cap := rfl
@[simp] theorem failureEntry_isEnc (e : CcmError) : (s.failureEntry e).isEnc = s.isEnc := rfl
@[simp] theorem failureEntry_keepKey (e : CcmError) : (s.failureEntry e).keepKey = s.keepKey := rfl

@[simp] theorem endCommand_capUnits : s.endCommand.capUnits = s.capUnits := rfl
@[simp] theorem endCommand_host : s.endCommand.host = s.host := rfl
@[simp] theorem endCommand_result : s.endCommand.result = { s.result with busy := false, done := true } := rfl
@[simp] theorem endCommand_ctl : s.endCommand.ctl = { s.ctl with phase := .idle } := rfl
@[simp] theorem endCommand_work : s.endCommand.work = s.work := rfl
@[simp] theorem endCommand_hung : s.endCommand.hung = s.hung := rfl
@[simp] theorem endCommand_env : s.endCommand.env = s.env := rfl
@[simp] theorem endCommand_cap : s.endCommand.cap = s.cap := rfl
@[simp] theorem endCommand_isEnc : s.endCommand.isEnc = s.isEnc := rfl
@[simp] theorem endCommand_keepKey : s.endCommand.keepKey = s.keepKey := rfl

@[simp] theorem hang_capUnits : s.hang.capUnits = s.capUnits := rfl
@[simp] theorem hang_host : s.hang.host = s.host := rfl
@[simp] theorem hang_result : s.hang.result = s.result := rfl
@[simp] theorem hang_ctl : s.hang.ctl = s.ctl := rfl
@[simp] theorem hang_work : s.hang.work = s.work := rfl
@[simp] theorem hang_hung : s.hang.hung = true := rfl
@[simp] theorem hang_env : s.hang.env = s.env := rfl
@[simp] theorem hang_cap : s.hang.cap = s.cap := rfl
@[simp] theorem hang_isEnc : s.hang.isEnc = s.isEnc := rfl
@[simp] theorem hang_keepKey : s.hang.keepKey = s.keepKey := rfl

@[simp] theorem goto_capUnits (p : Phase) : (s.goto p).capUnits = s.capUnits := rfl
@[simp] theorem goto_host (p : Phase) : (s.goto p).host = s.host := rfl
@[simp] theorem goto_result (p : Phase) : (s.goto p).result = s.result := rfl
@[simp] theorem goto_ctl (p : Phase) : (s.goto p).ctl = { s.ctl with phase := p } := rfl
@[simp] theorem goto_work (p : Phase) : (s.goto p).work = s.work := rfl
@[simp] theorem goto_hung (p : Phase) : (s.goto p).hung = s.hung := rfl
@[simp] theorem goto_env (p : Phase) : (s.goto p).env = s.env := rfl
@[simp] theorem goto_cap (p : Phase) : (s.goto p).cap = s.cap := rfl
@[simp] theorem goto_isEnc (p : Phase) : (s.goto p).isEnc = s.isEnc := rfl
@[simp] theorem goto_keepKey (p : Phase) : (s.goto p).keepKey = s.keepKey := rfl

@[simp] theorem respond_capUnits (r : Resp) : (s.respond r).capUnits = s.capUnits := rfl
@[simp] theorem respond_host (r : Resp) : (s.respond r).host = s.host := rfl
@[simp] theorem respond_result (r : Resp) : (s.respond r).result = s.result := rfl
@[simp] theorem respond_ctl (r : Resp) : (s.respond r).ctl = s.ctl := rfl
@[simp] theorem respond_work (r : Resp) : (s.respond r).work = s.work := rfl
@[simp] theorem respond_hung (r : Resp) : (s.respond r).hung = s.hung := rfl
@[simp] theorem respond_env (r : Resp) : (s.respond r).env = { s.env with resp := r } := rfl
@[simp] theorem respond_cap (r : Resp) : (s.respond r).cap = s.cap := rfl
@[simp] theorem respond_isEnc (r : Resp) : (s.respond r).isEnc = s.isEnc := rfl
@[simp] theorem respond_keepKey (r : Resp) : (s.respond r).keepKey = s.keepKey := rfl

@[simp] theorem schedule_capUnits (es : List Event) : (s.schedule es).capUnits = s.capUnits := rfl
@[simp] theorem schedule_host (es : List Event) : (s.schedule es).host = s.host := rfl
@[simp] theorem schedule_result (es : List Event) : (s.schedule es).result = s.result := rfl
@[simp] theorem schedule_ctl (es : List Event) : (s.schedule es).ctl = s.ctl := rfl
@[simp] theorem schedule_work (es : List Event) : (s.schedule es).work = s.work := rfl
@[simp] theorem schedule_hung (es : List Event) : (s.schedule es).hung = s.hung := rfl
@[simp] theorem schedule_env (es : List Event) : (s.schedule es).env = { s.env with events := es ++ s.env.events } := rfl
@[simp] theorem schedule_cap (es : List Event) : (s.schedule es).cap = s.cap := rfl
@[simp] theorem schedule_isEnc (es : List Event) : (s.schedule es).isEnc = s.isEnc := rfl
@[simp] theorem schedule_keepKey (es : List Event) : (s.schedule es).keepKey = s.keepKey := rfl

@[simp] theorem takeEvent_capUnits : s.takeEvent.capUnits = s.capUnits := rfl
@[simp] theorem takeEvent_host : s.takeEvent.host = s.host := rfl
@[simp] theorem takeEvent_result : s.takeEvent.result = s.result := rfl
@[simp] theorem takeEvent_ctl : s.takeEvent.ctl = s.ctl := rfl
@[simp] theorem takeEvent_work : s.takeEvent.work = s.work := rfl
@[simp] theorem takeEvent_hung : s.takeEvent.hung = s.hung := rfl
@[simp] theorem takeEvent_env : s.takeEvent.env = { s.env with events := s.env.events.tail } := rfl
@[simp] theorem takeEvent_cap : s.takeEvent.cap = s.cap := rfl
@[simp] theorem takeEvent_isEnc : s.takeEvent.isEnc = s.isEnc := rfl
@[simp] theorem takeEvent_keepKey : s.takeEvent.keepKey = s.keepKey := rfl

@[simp] theorem writeWbuf_capUnits (x : Nat) (bs : List Byte) : (s.writeWbuf x bs).capUnits = s.capUnits := rfl
@[simp] theorem writeWbuf_host (x : Nat) (bs : List Byte) : (s.writeWbuf x bs).host = s.host := rfl
@[simp] theorem writeWbuf_result (x : Nat) (bs : List Byte) : (s.writeWbuf x bs).result = s.result := rfl
@[simp] theorem writeWbuf_ctl (x : Nat) (bs : List Byte) : (s.writeWbuf x bs).ctl = s.ctl := rfl
@[simp] theorem writeWbuf_work (x : Nat) (bs : List Byte) : (s.writeWbuf x bs).work = { s.work with wbuf := s.work.wbuf.writeBytes x bs } := rfl
@[simp] theorem writeWbuf_hung (x : Nat) (bs : List Byte) : (s.writeWbuf x bs).hung = s.hung := rfl
@[simp] theorem writeWbuf_env (x : Nat) (bs : List Byte) : (s.writeWbuf x bs).env = s.env := rfl
@[simp] theorem writeWbuf_cap (x : Nat) (bs : List Byte) : (s.writeWbuf x bs).cap = s.cap := rfl
@[simp] theorem writeWbuf_isEnc (x : Nat) (bs : List Byte) : (s.writeWbuf x bs).isEnc = s.isEnc := rfl
@[simp] theorem writeWbuf_keepKey (x : Nat) (bs : List Byte) : (s.writeWbuf x bs).keepKey = s.keepKey := rfl

@[simp] theorem zeroWbuf_capUnits (x n : Nat) : (s.zeroWbuf x n).capUnits = s.capUnits := rfl
@[simp] theorem zeroWbuf_host (x n : Nat) : (s.zeroWbuf x n).host = s.host := rfl
@[simp] theorem zeroWbuf_result (x n : Nat) : (s.zeroWbuf x n).result = s.result := rfl
@[simp] theorem zeroWbuf_ctl (x n : Nat) : (s.zeroWbuf x n).ctl = s.ctl := rfl
@[simp] theorem zeroWbuf_work (x n : Nat) : (s.zeroWbuf x n).work = { s.work with wbuf := s.work.wbuf.zeroFill x n } := rfl
@[simp] theorem zeroWbuf_hung (x n : Nat) : (s.zeroWbuf x n).hung = s.hung := rfl
@[simp] theorem zeroWbuf_env (x n : Nat) : (s.zeroWbuf x n).env = s.env := rfl
@[simp] theorem zeroWbuf_cap (x n : Nat) : (s.zeroWbuf x n).cap = s.cap := rfl
@[simp] theorem zeroWbuf_isEnc (x n : Nat) : (s.zeroWbuf x n).isEnc = s.isEnc := rfl
@[simp] theorem zeroWbuf_keepKey (x n : Nat) : (s.zeroWbuf x n).keepKey = s.keepKey := rfl

@[simp] theorem issue_capUnits (c : Call) : (s.issue c).capUnits = s.capUnits := rfl
@[simp] theorem issue_host (c : Call) : (s.issue c).host = s.host := rfl
@[simp] theorem issue_result (c : Call) : (s.issue c).result = s.result := rfl
@[simp] theorem issue_ctl (c : Call) : (s.issue c).ctl = s.ctl := rfl
@[simp] theorem issue_work (c : Call) : (s.issue c).work = s.work := rfl
@[simp] theorem issue_hung (c : Call) : (s.issue c).hung = s.hung := rfl
@[simp] theorem issue_env (c : Call) : (s.issue c).env = { s.env with calls := s.env.calls ++ [c], answers := s.env.answers.tail } := rfl
@[simp] theorem issue_cap (c : Call) : (s.issue c).cap = s.cap := rfl
@[simp] theorem issue_isEnc (c : Call) : (s.issue c).isEnc = s.isEnc := rfl
@[simp] theorem issue_keepKey (c : Call) : (s.issue c).keepKey = s.keepKey := rfl

@[simp] theorem start_capUnits (w : Word) : (s.start w).capUnits = s.capUnits := rfl
@[simp] theorem start_host (w : Word) : (s.start w).host = s.host := rfl
@[simp] theorem start_result (w : Word) : (s.start w).result =
    { busy := true, done := false, rej := false, err := none, outLen := 0, out := s.result.out.zeroFill 0 s.cap } := rfl
@[simp] theorem start_ctl (w : Word) : (s.start w).ctl = { phase := .validateArgs, cmdLatch := w } := rfl
@[simp] theorem start_work (w : Word) : (s.start w).work = { s.work with keyUsed := false, verifyOk := false } := rfl
@[simp] theorem start_hung (w : Word) : (s.start w).hung = s.hung := rfl
@[simp] theorem start_env (w : Word) : (s.start w).env = s.env := rfl
@[simp] theorem start_cap (w : Word) : (s.start w).cap = s.cap := rfl

@[simp] theorem reject_capUnits : s.reject.capUnits = s.capUnits := rfl
@[simp] theorem reject_host : s.reject.host = s.host := rfl
@[simp] theorem reject_result : s.reject.result = { s.result with rej := true } := rfl
@[simp] theorem reject_ctl : s.reject.ctl = s.ctl := rfl
@[simp] theorem reject_work : s.reject.work = s.work := rfl
@[simp] theorem reject_hung : s.reject.hung = s.hung := rfl
@[simp] theorem reject_env : s.reject.env = s.env := rfl
@[simp] theorem reject_cap : s.reject.cap = s.cap := rfl
@[simp] theorem reject_isEnc : s.reject.isEnc = s.isEnc := rfl
@[simp] theorem reject_keepKey : s.reject.keepKey = s.keepKey := rfl

@[simp] theorem setLayout_capUnits (po pp n : Word) : (s.setLayout po pp n).capUnits = s.capUnits := rfl
@[simp] theorem setLayout_host (po pp n : Word) : (s.setLayout po pp n).host = s.host := rfl
@[simp] theorem setLayout_result (po pp n : Word) : (s.setLayout po pp n).result = s.result := rfl
@[simp] theorem setLayout_ctl (po pp n : Word) : (s.setLayout po pp n).ctl = s.ctl := rfl
@[simp] theorem setLayout_work (po pp n : Word) : (s.setLayout po pp n).work = { s.work with payloadOffset := po, ppad := pp, wbufLen := n } := rfl
@[simp] theorem setLayout_hung (po pp n : Word) : (s.setLayout po pp n).hung = s.hung := rfl
@[simp] theorem setLayout_env (po pp n : Word) : (s.setLayout po pp n).env = s.env := rfl
@[simp] theorem setLayout_cap (po pp n : Word) : (s.setLayout po pp n).cap = s.cap := rfl
@[simp] theorem setLayout_isEnc (po pp n : Word) : (s.setLayout po pp n).isEnc = s.isEnc := rfl
@[simp] theorem setLayout_keepKey (po pp n : Word) : (s.setLayout po pp n).keepKey = s.keepKey := rfl

@[simp] theorem startKeyUse_capUnits (b : Block) : (s.startKeyUse b).capUnits = s.capUnits := rfl
@[simp] theorem startKeyUse_host (b : Block) : (s.startKeyUse b).host = s.host := rfl
@[simp] theorem startKeyUse_result (b : Block) : (s.startKeyUse b).result = s.result := rfl
@[simp] theorem startKeyUse_ctl (b : Block) : (s.startKeyUse b).ctl = s.ctl := rfl
@[simp] theorem startKeyUse_work (b : Block) : (s.startKeyUse b).work = { s.work with ctr := b, keyUsed := true } := rfl
@[simp] theorem startKeyUse_hung (b : Block) : (s.startKeyUse b).hung = s.hung := rfl
@[simp] theorem startKeyUse_env (b : Block) : (s.startKeyUse b).env = s.env := rfl
@[simp] theorem startKeyUse_cap (b : Block) : (s.startKeyUse b).cap = s.cap := rfl
@[simp] theorem startKeyUse_isEnc (b : Block) : (s.startKeyUse b).isEnc = s.isEnc := rfl
@[simp] theorem startKeyUse_keepKey (b : Block) : (s.startKeyUse b).keepKey = s.keepKey := rfl

@[simp] theorem advanceCtr_capUnits : s.advanceCtr.capUnits = s.capUnits := rfl
@[simp] theorem advanceCtr_host : s.advanceCtr.host = s.host := rfl
@[simp] theorem advanceCtr_result : s.advanceCtr.result = s.result := rfl
@[simp] theorem advanceCtr_ctl : s.advanceCtr.ctl = s.ctl := rfl
@[simp] theorem advanceCtr_work : s.advanceCtr.work = { s.work with ctr := s.work.ctr.set 15 1 } := rfl
@[simp] theorem advanceCtr_hung : s.advanceCtr.hung = s.hung := rfl
@[simp] theorem advanceCtr_env : s.advanceCtr.env = s.env := rfl
@[simp] theorem advanceCtr_cap : s.advanceCtr.cap = s.cap := rfl
@[simp] theorem advanceCtr_isEnc : s.advanceCtr.isEnc = s.isEnc := rfl
@[simp] theorem advanceCtr_keepKey : s.advanceCtr.keepKey = s.keepKey := rfl

@[simp] theorem setRawTag_capUnits (t : List Byte) : (s.setRawTag t).capUnits = s.capUnits := rfl
@[simp] theorem setRawTag_host (t : List Byte) : (s.setRawTag t).host = s.host := rfl
@[simp] theorem setRawTag_result (t : List Byte) : (s.setRawTag t).result = s.result := rfl
@[simp] theorem setRawTag_ctl (t : List Byte) : (s.setRawTag t).ctl = s.ctl := rfl
@[simp] theorem setRawTag_work (t : List Byte) : (s.setRawTag t).work = { s.work with rawTag := fit 16 t } := rfl
@[simp] theorem setRawTag_hung (t : List Byte) : (s.setRawTag t).hung = s.hung := rfl
@[simp] theorem setRawTag_env (t : List Byte) : (s.setRawTag t).env = s.env := rfl
@[simp] theorem setRawTag_cap (t : List Byte) : (s.setRawTag t).cap = s.cap := rfl
@[simp] theorem setRawTag_isEnc (t : List Byte) : (s.setRawTag t).isEnc = s.isEnc := rfl
@[simp] theorem setRawTag_keepKey (t : List Byte) : (s.setRawTag t).keepKey = s.keepKey := rfl

@[simp] theorem emit_capUnits (bs : List Byte) (n : Word) : (s.emit bs n).capUnits = s.capUnits := rfl
@[simp] theorem emit_host (bs : List Byte) (n : Word) : (s.emit bs n).host = s.host := rfl
@[simp] theorem emit_result (bs : List Byte) (n : Word) : (s.emit bs n).result = { s.result with out := s.result.out.writeBytes 0 bs, outLen := n } := rfl
@[simp] theorem emit_ctl (bs : List Byte) (n : Word) : (s.emit bs n).ctl = s.ctl := rfl
@[simp] theorem emit_work (bs : List Byte) (n : Word) : (s.emit bs n).work = s.work := rfl
@[simp] theorem emit_hung (bs : List Byte) (n : Word) : (s.emit bs n).hung = s.hung := rfl
@[simp] theorem emit_env (bs : List Byte) (n : Word) : (s.emit bs n).env = s.env := rfl
@[simp] theorem emit_cap (bs : List Byte) (n : Word) : (s.emit bs n).cap = s.cap := rfl
@[simp] theorem emit_isEnc (bs : List Byte) (n : Word) : (s.emit bs n).isEnc = s.isEnc := rfl
@[simp] theorem emit_keepKey (bs : List Byte) (n : Word) : (s.emit bs n).keepKey = s.keepKey := rfl

@[simp] theorem zeroize_capUnits : s.zeroize.capUnits = s.capUnits := rfl
@[simp] theorem zeroize_host : s.zeroize.host = s.host := rfl
@[simp] theorem zeroize_result : s.zeroize.result = s.result := rfl
@[simp] theorem zeroize_ctl : s.zeroize.ctl = { s.ctl with cmdLatch := 0 } := rfl
@[simp] theorem zeroize_work : s.zeroize.work = { Working.zero with wbuf := s.work.wbuf.zeroFill 0 s.cap } := rfl
@[simp] theorem zeroize_hung : s.zeroize.hung = s.hung := rfl
@[simp] theorem zeroize_env : s.zeroize.env = s.env := rfl
@[simp] theorem zeroize_cap : s.zeroize.cap = s.cap := rfl

/-- CLEANUP part 3 changes only OUT and OUT_LEN, and those only after a failure. -/
theorem withdrawOnError_cases :
    (s.result.err = none ∧ s.withdrawOnError = s) ∨
    (s.result.err ≠ none ∧ s.withdrawOnError =
      { s with result := { s.result with out := s.result.out.zeroFill 0 s.cap, outLen := 0 } }) := by
  unfold State.withdrawOnError
  split
  · exact .inl ⟨‹_›, rfl⟩
  · exact .inr ⟨‹_›, rfl⟩

/-- A write of the CMD register is dropped, does nothing, or starts a command. -/
theorem cmdWrite_cases (w : Word) :
    (s.result.busy = true ∧ s.cmdWrite w = s.reject) ∨
    (s.result.busy = false ∧ w.getLsbD 0 = false ∧ s.cmdWrite w = s) ∨
    (s.result.busy = false ∧ w.getLsbD 0 = true ∧ s.cmdWrite w = s.start w) := by
  unfold State.cmdWrite
  cases s.result.busy <;> cases w.getLsbD 0 <;> simp

end Sys2Proof.Machine
end

