-- ==== Sys2Proof/Laws/Runs.lean ====
section
/-! SUPPORT. How runs compose and end, and what each shared operation can do: one lemma per operation, in terms of
`Run.Ends`, that later proofs cite instead of unfolding it. -/

namespace Sys2Proof.Machine

/-! ### The constructors through bind, guards and ends -/

section
variable {α β : Type} (a : α) (s : State) (e : CcmError) (x : Fault) (f : α → State → Run β) (k : α → State → State)

@[simp] theorem Run.bind_value : (Run.value a s).bind f = f a s := rfl
@[simp] theorem Run.bind_raised : (Run.raised e s : Run α).bind f = .raised e s := rfl
@[simp] theorem Run.bind_stuck : (Run.stuck s : Run α).bind f = .stuck s := rfl
@[simp] theorem Run.bind_faulted : (Run.faulted x : Run α).bind f = .faulted x := rfl
@[simp] theorem Run.finish_value : (Run.value a s).finish k = .next (k a s) := rfl
@[simp] theorem Run.finish_raised : (Run.raised e s : Run α).finish k = .next (s.failureEntry e) := rfl
@[simp] theorem Run.finish_stuck : (Run.stuck s : Run α).finish k = .next s.hang := rfl
@[simp] theorem Run.finish_faulted : (Run.faulted x : Run α).finish k = .fault x := rfl
@[simp] theorem Run.ofExcept_ok : Run.ofExcept (.ok a) s = .value a s := rfl
@[simp] theorem Run.ofExcept_error : (Run.ofExcept (.error e) s : Run α) = .raised e s := rfl
@[simp] theorem Run.ofOption_some (mn : String) : Run.ofOption mn (some a) s = .value a s := rfl
@[simp] theorem Run.ofOption_none (mn : String) : (Run.ofOption mn none s : Run α) = .faulted (.outsideDomain mn) := rfl

theorem Run.check_of {p : Prop} [Decidable p] {r : Run α} (h : p) : Run.check p s r = r := if_pos h

/-- A violated internal invariant is BadState with nothing changed (entry 9). -/
theorem Run.check_of_not {p : Prop} [Decidable p] {r : Run α} (h : ¬ p) : Run.check p s r = .raised .badState s := if_neg h

theorem Run.inSpace_of_le {sp : Space} {o n : Nat} {r : Run α} (h : o + n ≤ s.capacity sp) :
    Run.inSpace s sp o n r = r := Run.check_of s (.inr h)

@[simp] theorem Run.inSpace_empty {sp : Space} {o : Nat} {r : Run α} : Run.inSpace s sp o 0 r = r :=
  Run.check_of s (.inl rfl)

/-- An access that leaves its space is BadState with nothing changed (R79, entry 9). -/
theorem Run.inSpace_of_lt {sp : Space} {o n : Nat} {r : Run α} (hn : 0 < n) (h : s.capacity sp < o + n) :
    Run.inSpace s sp o n r = .raised .badState s := Run.check_of_not s (by omega)

theorem Run.tagFits_of_le {r : Run α} (h : s.host.tagLen.toNat ≤ 16) : Run.tagFits s r = r := Run.check_of s h

theorem Run.tagFits_of_lt {r : Run α} (h : 16 < s.host.tagLen.toNat) : Run.tagFits s r = .raised .badState s :=
  Run.check_of_not s (by omega)

end

/-- How a run ends: each end as said, and no stop. -/
def Run.Ends {α : Type} (r : Run α) (P : α → State → Prop) (R : CcmError → State → Prop) (K : State → Prop) : Prop :=
  match r with
  | .value a s => P a s
  | .raised e s => R e s
  | .stuck s => K s
  | .faulted _ => False

/-- Running one part after another. -/
theorem Run.Ends.bind {α β : Type} {r : Run α} {f : α → State → Run β} {P : α → State → Prop}
    {Q : β → State → Prop} {R : CcmError → State → Prop} {K : State → Prop}
    (h : r.Ends P R K) (hf : ∀ a s, P a s → (f a s).Ends Q R K) : (r.bind f).Ends Q R K := by
  cases r with
  | value a s => exact hf a s h
  | raised e s => exact h
  | stuck s => exact h
  | faulted x => exact h.elim

/-- Weakening what is said of the ends. -/
theorem Run.Ends.mono {α : Type} {r : Run α} {P P' : α → State → Prop} {R R' : CcmError → State → Prop}
    {K K' : State → Prop} (h : r.Ends P R K) (hP : ∀ a s, P a s → P' a s) (hR : ∀ e s, R e s → R' e s)
    (hK : ∀ s, K s → K' s) : r.Ends P' R' K' := by
  cases r with
  | value a s => exact hP a s h
  | raised e s => exact hR e s h
  | stuck s => exact hK s h
  | faulted x => exact h.elim

/-- The end of a phase step as an outcome: a next state of one of three kinds. -/
theorem Run.Ends.finish {α : Type} {r : Run α} {P : α → State → Prop} {R : CcmError → State → Prop}
    {K : State → Prop} (h : r.Ends P R K) (k : α → State → State) :
    ∃ t, r.finish k = .next t ∧
      ((∃ a s, P a s ∧ t = k a s) ∨ (∃ e s, R e s ∧ t = s.failureEntry e) ∨ ∃ s, K s ∧ t = s.hang) := by
  cases r with
  | value a s => exact ⟨_, rfl, .inl ⟨a, s, h, rfl⟩⟩
  | raised e s => exact ⟨_, rfl, .inr (.inl ⟨e, s, h, rfl⟩)⟩
  | stuck s => exact ⟨_, rfl, .inr (.inr ⟨s, h, rfl⟩)⟩
  | faulted x => exact h.elim

/-! ### Collaborator calls -/

/-- A request ends as its answer says, with the call issued and nothing else changed. -/
theorem request_ends (s : State) (c : Call) :
    (s.request c).Ends (fun r u => u = s.issue c ∧ s.nextAnswer c = .ok r.1 r.2)
      (fun e u => e = .engineFailure ∧ u = s.issue c ∧ s.nextAnswer c = .fail)
      (fun u => u = s.issue c ∧ s.nextAnswer c = .noReturn) := by
  unfold State.request
  cases h : s.nextAnswer c <;> simp [Run.Ends]

theorem request_ok {s : State} {c : Call} {b : Block} {d : List Byte} (h : s.nextAnswer c = .ok b d) :
    s.request c = .value (b, d) (s.issue c) := by simp [State.request, h]

theorem request_fail {s : State} {c : Call} (h : s.nextAnswer c = .fail) :
    s.request c = .raised .engineFailure (s.issue c) := by simp [State.request, h]

theorem request_noReturn {s : State} {c : Call} (h : s.nextAnswer c = .noReturn) :
    s.request c = .stuck (s.issue c) := by simp [State.request, h]

/-- The call ecb_encrypt_block makes. -/
abbrev State.ecbCall (s : State) : Call := .ecbEncryptBlock s.host.keyCtx s.work.ctr

/-- The call ctr_encrypt makes over `WBUF[off, off+len)`. -/
abbrev State.ctrCall (s : State) (off len : Word) : Call :=
  .ctrEncrypt s.host.keyCtx s.work.ctr (s.work.wbuf.readBytes off.toNat len.toNat) len

/-- The call cbc_mac makes over `WBUF[0, len)`. -/
abbrev State.macCall (s : State) (len : Word) : Call :=
  .cbcMac s.host.keyCtx (s.work.wbuf.readBytes 0 len.toNat) len

/-- The call keyslot_erase makes. -/
abbrev State.eraseCall (s : State) : Call := .keyslotErase s.host.keyCtx

/-- ecb_encrypt_block writes S0 and nothing else, raises EngineFailure or is stuck (R260). -/
theorem requestEcb_ends (s : State) :
    (requestEcb s).Ends
      (fun _ u => ∃ out d, s.nextAnswer s.ecbCall = .ok out d ∧
        u = { s.issue s.ecbCall with work := { s.work with s0 := out } })
      (fun e u => e = .engineFailure ∧ u = s.issue s.ecbCall)
      (fun u => u = s.issue s.ecbCall) := by
  refine Run.Ends.bind (P := fun r u => u = s.issue s.ecbCall ∧ s.nextAnswer s.ecbCall = .ok r.1 r.2) ?_ ?_
  · exact (request_ends s _).mono (fun _ _ h => h) (fun _ _ h => ⟨h.1, h.2.1⟩) (fun _ h => h.1)
  · rintro ⟨out, d⟩ u ⟨rfl, h⟩
    exact ⟨out, d, h, rfl⟩

/-- ctr_encrypt over a region inside WBUF whose length is a multiple of 16 writes that region and CTR and nothing
else, raises EngineFailure or is stuck (R261). -/
theorem requestCtr_ends (off len : Word) (s : State) (h16 : len.toNat % 16 = 0) (hb : off.toNat + len.toNat ≤ s.cap) :
    (requestCtr off len s).Ends
      (fun _ u => ∃ ctr d, s.nextAnswer (s.ctrCall off len) = .ok ctr d ∧
        u = { s.issue (s.ctrCall off len) with work := { s.work with
          wbuf := s.work.wbuf.writeBytes off.toNat (fitBytes len.toNat d), ctr := ctr } })
      (fun e u => e = .engineFailure ∧ u = s.issue (s.ctrCall off len))
      (fun u => u = s.issue (s.ctrCall off len)) := by
  unfold requestCtr
  rw [if_neg (by simp [h16]), Run.inSpace_of_le s (sp := .wbuf) hb]
  refine Run.Ends.bind (P := fun r u => u = s.issue (s.ctrCall off len) ∧ s.nextAnswer (s.ctrCall off len) = .ok r.1 r.2)
    ?_ ?_
  · exact (request_ends s _).mono (fun _ _ h => h) (fun _ _ h => ⟨h.1, h.2.1⟩) (fun _ h => h.1)
  · rintro ⟨ctr, d⟩ u ⟨rfl, h⟩
    exact ⟨ctr, d, h, rfl⟩

/-- cbc_mac over a length of at least 16 that is a multiple of 16 and inside WBUF changes nothing of the block, raises
EngineFailure or is stuck (R262). -/
theorem requestMac_ends (len : Word) (s : State) (h16 : len.toNat % 16 = 0) (hl : 16 ≤ len.toNat)
    (hb : len.toNat ≤ s.cap) :
    (requestMac len s).Ends
      (fun mac u => ∃ d, s.nextAnswer (s.macCall len) = .ok mac d ∧ u = s.issue (s.macCall len))
      (fun e u => e = .engineFailure ∧ u = s.issue (s.macCall len))
      (fun u => u = s.issue (s.macCall len)) := by
  unfold requestMac
  rw [if_neg (by omega), Run.inSpace_of_le s (sp := .wbuf) (by simpa [State.capacity] using hb)]
  refine Run.Ends.bind (P := fun r u => u = s.issue (s.macCall len) ∧ s.nextAnswer (s.macCall len) = .ok r.1 r.2) ?_ ?_
  · exact (request_ends s _).mono (fun _ _ h => h) (fun _ _ h => ⟨h.1, h.2.1⟩) (fun _ h => h.1)
  · rintro ⟨mac, d⟩ u ⟨rfl, h⟩
    exact ⟨d, h, rfl⟩

/-- COMPUTE_TAG returns the first TAG_LEN bytes of the MAC (R180, R181). -/
theorem computeTag_ends (len : Word) (s : State) (h16 : len.toNat % 16 = 0) (hl : 16 ≤ len.toNat)
    (hb : len.toNat ≤ s.cap) (ht : s.host.tagLen.toNat ≤ 16) :
    (computeTag len s).Ends
      (fun t u => ∃ mac d, s.nextAnswer (s.macCall len) = .ok mac d ∧ t = mac.toList.take s.host.tagLen.toNat ∧
        u = s.issue (s.macCall len))
      (fun e u => e = .engineFailure ∧ u = s.issue (s.macCall len))
      (fun u => u = s.issue (s.macCall len)) := by
  refine (requestMac_ends len s h16 hl hb).bind ?_
  rintro mac u ⟨d, h, rfl⟩
  rw [Run.tagFits_of_le _ (by simpa using ht)]
  exact ⟨mac, d, h, rfl, rfl⟩

/-- keyslot_erase never raises: it issues the call, and a failure is recorded in ERR where no error stands (R263). -/
theorem requestErase_ends (s : State) :
    (requestErase s).Ends
      (fun _ u => u = { s.issue s.eraseCall with result := { s.result with
        err := if s.nextAnswer s.eraseCall = .fail then s.result.err.or (some .engineFailure) else s.result.err } })
      (fun _ _ => False)
      (fun u => u = s.issue s.eraseCall) := by
  unfold requestErase
  cases h : s.nextAnswer s.eraseCall with
  | fail => simp [Run.Ends]
  | noReturn => simp [Run.Ends]
  | ok b d =>
    simp only [Run.Ends]
    rw [if_neg (by simp)]
    rfl

end Sys2Proof.Machine
end

