-- ==== Sys2Proof/Laws/Compose.lean ====
section
/-! SUPPORT. What the Framing Encoder and each step of COMPOSE can do (R140 to R146, R160 to R166): one lemma for a
step's success with everything it writes, one for its failure. -/

namespace Sys2Proof.Machine

/-! ### Zero padding -/

/-- The length of a padded string: the least multiple of 16 not below the string's length. -/
theorem length_padTo16 (l : List Byte) :
    (padTo16 l).length % 16 = 0 ∧ l.length ≤ (padTo16 l).length ∧ (padTo16 l).length < l.length + 16 := by
  unfold padTo16
  rw [List.length_append, List.length_replicate]
  omega

theorem length_padTo16_unique {l : List Byte} {n : Nat} (h : n % 16 = 0) (h1 : l.length ≤ n) (h2 : n < l.length + 16) :
    n = (padTo16 l).length := by
  have := length_padTo16 l
  omega

/-- A byte of a padded string: the string's, or zero. -/
theorem getD_padTo16 (l : List Byte) (i : Nat) : (padTo16 l).getD i 0 = l.getD i 0 := by
  unfold padTo16
  simp only [List.getD_eq_getElem?_getD, List.getElem?_append]
  split
  · rfl
  · next h =>
    rw [List.getElem?_eq_none (l := l) (by omega), List.getElem?_replicate]
    split <;> rfl

/-- A byte of two strings one after the other. -/
theorem getD_append' (k l : List Byte) (i : Nat) :
    (k ++ l).getD i 0 = if i < k.length then k.getD i 0 else l.getD (i - k.length) 0 := by
  simp only [List.getD_eq_getElem?_getD, List.getElem?_append]
  split <;> rfl

theorem getD_of_length_le {l : List Byte} {i : Nat} (h : l.length ≤ i) : l.getD i 0 = 0 := by
  simp [List.getD_eq_getElem?_getD, List.getElem?_eq_none h]

/-- Writing a string and zero-filling up to its padded end writes the padded string. -/
theorem get_writePadded (m : Memory) (x e : Nat) (l : List Byte) (he : e = x + (padTo16 l).length) (a : Nat) :
    ((m.writeBytes x l).zeroFill (x + l.length) (e - (x + l.length))).get a
      = if x ≤ a ∧ a < e then (padTo16 l).getD (a - x) 0 else m.get a := by
  have hp := length_padTo16 l
  rw [Memory.get_zeroFill, Memory.get_writeBytes, getD_padTo16]
  by_cases h1 : x + l.length ≤ a ∧ a < e
  · rw [if_pos (by omega), if_pos (by omega), getD_of_length_le (by omega)]
  · rw [if_neg (by omega)]
    by_cases h2 : x ≤ a ∧ a < x + l.length
    · rw [if_pos h2, if_pos (by omega)]
    · rw [if_neg h2, if_neg (by omega)]

/-! ### Framing Encoder -/

/-- The domain on which ENC_B0 succeeds (R140). -/
abbrev frameable (nonceLen tagLen payloadLen : Word) : Prop :=
  legalTagLen tagLen = true ∧ legalNonceLen nonceLen = true ∧ lengthFits (15 - nonceLen.toNat) payloadLen = true

theorem encodeB0_ok {nonceLen tagLen payloadLen : Word} (nonce : NonceBytes) (aadLen : Long)
    (h : frameable nonceLen tagLen payloadLen) : ∃ b0, encodeB0 nonce nonceLen tagLen aadLen payloadLen = .ok b0 := by
  unfold encodeB0 encodeB0Flags
  simp [h.1, h.2.1, h.2.2, bind, Except.bind, pure, Except.pure]

theorem encodeAadLen_length (n : Long) : (encodeAadLen n).1.length = (encodeAadLen n).2 := by
  unfold encodeAadLen
  split_ifs <;> simp

theorem encodeAadLen_le (n : Long) : (encodeAadLen n).2 ≤ 10 := by
  unfold encodeAadLen
  split_ifs <;> simp

theorem be_zero (k : Nat) : be 0 k = List.replicate k 0 := by
  induction k with
  | zero => rfl
  | succ k ih => rw [be, Nat.zero_div, ih, List.replicate_succ']; rfl

theorem be_one (k : Nat) : be 1 (k + 1) = List.replicate k 0 ++ [1] := by
  rw [be, show 1 / 256 = 0 from rfl, be_zero]
  rfl

/-- CTR0 is CTR_M at 0 (R146). -/
theorem encodeCtr0_eq {nonceLen : Word} (nonce : NonceBytes) (h : legalNonceLen nonceLen = true) :
    encodeCtr0 nonce nonceLen = some ((encodeCtrM nonce nonceLen 0).getD Block.zero) := by
  unfold encodeCtr0 encodeCtrM encodeCtr0Flags
  simp [h, be_zero]

/-- Setting byte 15 of CTR0 to 1 gives CTR1 (R165). -/
theorem ctr0_set (nonce : NonceBytes) {nonceLen : Word} (h : legalNonceLen nonceLen = true) :
    ((encodeCtrM nonce nonceLen 0).getD Block.zero).set 15 1 = (encodeCtrM nonce nonceLen 1).getD Block.zero := by
  have hn : 7 ≤ nonceLen.toNat ∧ nonceLen.toNat ≤ 13 := by simpa [legalNonceLen] using h
  obtain ⟨k, hk⟩ : ∃ k, 15 - nonceLen.toNat = k + 1 := ⟨14 - nonceLen.toNat, by omega⟩
  have h1 : 1 < 256 ^ (15 - nonceLen.toNat) := Nat.one_lt_pow (by omega) (by omega)
  unfold encodeCtrM encodeCtr0Flags
  simp only [if_pos h, Nat.pos_of_ne_zero (show 256 ^ (15 - nonceLen.toNat) ≠ 0 by positivity), if_true, if_pos h1,
    Option.getD_some]
  rw [hk, be_zero, be_one]
  apply Vector.ext
  intro i hi
  have hl : (BitVec.ofNat 8 (14 - nonceLen.toNat) :: List.take nonceLen.toNat nonce.toList).length = nonceLen.toNat + 1 := by
    simp; omega
  have hg : ∀ (l : List Byte) (j : Nat) (hj : j < 16), (fit 16 l)[j] = l.getD j 0 := by
    intro l j hj
    have := getD_fitBytes 16 l j
    rw [if_pos hj] at this
    rw [← this, List.getD_eq_getElem?_getD, List.getElem?_eq_getElem (by simpa using hj)]
    rfl
  rw [Vector.getElem_set]
  rw [hg, hg _ i hi]
  rw [getD_append', getD_append', hl]
  by_cases h15 : 15 = i
  · subst h15
    rw [if_pos rfl, if_neg (by omega), getD_append', if_neg (by simp; omega)]
    simp [show 14 - nonceLen.toNat - k = 0 by omega]
  · rw [if_neg h15]
    split
    · rfl
    · rw [getD_append', List.length_replicate, if_pos (by omega)]
      simp [List.getD_eq_getElem?_getD, show i - (nonceLen.toNat + 1) < k + 1 by omega,
        show i - (nonceLen.toNat + 1) < k by omega]

/-! ### The steps of COMPOSE -/

/-- Step 1 (R161). -/
theorem composeB0_value {s : State} {b0 : Block}
    (h : encodeB0 s.nonceBytes s.host.nonceLen s.host.tagLen s.host.aadLen s.work.plen = .ok b0) :
    composeB0 s = .value () (s.writeWbuf 0 b0.toList) := by
  unfold composeB0
  rw [h]
  rfl

/-- The end of the AAD region, exact, or TooBig: 2^32 is reached only by regions that fit no CAP (R162). -/
theorem aadRegionEnd_cases (n : Long) (l : List Byte) (hl : l.length = n.toNat) :
    (∃ e pe, aadRegionEnd n = .ok (e, pe) ∧ e.toNat = 16 + ((encodeAadLen n).1 ++ l).length
      ∧ pe.toNat = 16 + (padTo16 ((encodeAadLen n).1 ++ l)).length)
    ∨ (aadRegionEnd n = .error .tooBig ∧ 2 ^ 32 - 16 < 16 + (padTo16 ((encodeAadLen n).1 ++ l)).length)
    ∨ 2 ^ 32 ≤ n.toNat := by
  by_cases hn : 2 ^ 32 ≤ n.toNat
  · exact .inr (.inr hn)
  have hp := length_padTo16 ((encodeAadLen n).1 ++ l)
  have hk := encodeAadLen_le n
  rw [List.length_append, encodeAadLen_length, hl] at hp ⊢
  have h1 : (BitVec.ofNat 32 (encodeAadLen n).2).toNat = (encodeAadLen n).2 := by
    rw [BitVec.toNat_ofNat]; omega
  have h2 : (n.setWidth 32).toNat = n.toNat := by
    rw [BitVec.toNat_setWidth]; omega
  have h16 : (16 : Word).toNat = 16 := rfl
  unfold aadRegionEnd
  rcases addChecked_cases 16 (BitVec.ofNat 32 (encodeAadLen n).2) with ⟨a1, a, e1, a2⟩ | ⟨a1, e1⟩
  · rcases addChecked_cases a (n.setWidth 32) with ⟨b1, b, e2, b2⟩ | ⟨b1, e2⟩
    · rcases roundUp16_cases b with ⟨c1, c, e3, c2⟩ | ⟨c1, e3⟩
      · refine .inl ⟨b, c, by simp only [e1, e2, e3, bind, Except.bind, pure, Except.pure], by omega, by omega⟩
      · refine .inr (.inl ⟨by simp only [e1, e2, e3, bind, Except.bind], by omega⟩)
    · refine .inr (.inl ⟨by simp only [e1, e2, bind, Except.bind], by omega⟩)
  · omega

/-- What step 2 leaves: the AAD region written, AAD_PADDED_LEN its length, nothing else changed (R162). -/
structure AadWritten (s u : State) (r : List Byte) : Prop where
  rest : u = { s with work := { s.work with wbuf := u.work.wbuf, aadPaddedLen := u.work.aadPaddedLen } }
  len : u.work.aadPaddedLen.toNat = r.length
  bytes : ∀ a, u.work.wbuf.get a = if 16 ≤ a ∧ a < 16 + r.length then r.getD (a - 16) 0 else s.work.wbuf.get a
  ok : s.work.wbuf.ok s.cap → u.work.wbuf.ok s.cap

/-- Step 2 (R162): the AAD region, or TooBig with nothing written. -/
theorem composeAad_cases (s : State) {r : List Byte}
    (hr : r = padTo16 ((encodeAadLen s.host.aadLen).1 ++ s.host.aad.readBytes 0 s.host.aadLen.toNat)) :
    (16 + r.length ≤ s.cap ∧ ∃ u, composeAad s = .value () u ∧ AadWritten s u r)
    ∨ (s.cap < 16 + r.length ∧ composeAad s = .raised .tooBig s) := by
  have hc := cap_bounds s
  have hp := length_padTo16 ((encodeAadLen s.host.aadLen).1 ++ s.host.aad.readBytes 0 s.host.aadLen.toNat)
  rw [← hr] at hp
  rw [List.length_append, Memory.length_readBytes] at hp
  unfold composeAad
  by_cases hz : s.host.aadLen = 0
  · rw [if_pos hz]
    have hr0 : r.length = 0 := by
      have hk : (encodeAadLen s.host.aadLen).1.length = 0 := by rw [hz]; rfl
      have hn : s.host.aadLen.toNat = 0 := by rw [hz]; rfl
      omega
    exact .inl ⟨by omega, _, rfl, rfl, by rw [hr0]; rfl, fun a => by rw [if_neg (by omega)], fun h => h⟩
  · rw [if_neg hz]
    by_cases h1 : s.cap ≤ s.host.aadLen.toNat
    · rw [if_pos h1]
      exact .inr ⟨by omega, rfl⟩
    · rw [if_neg h1]
      rcases aadRegionEnd_cases s.host.aadLen (s.host.aad.readBytes 0 s.host.aadLen.toNat)
        (Memory.length_readBytes ..) with ⟨e, pe, he, h2, h3⟩ | ⟨he, h2⟩ | h2
      · rw [he]
        simp only [Run.ofExcept_ok, Run.bind_value]
        rw [← hr] at h3
        by_cases h4 : s.cap < pe.toNat
        · rw [if_pos h4]
          exact .inr ⟨by omega, rfl⟩
        · rw [if_neg h4]
          have h16 : (pe - 16).toNat = pe.toNat - 16 :=
            BitVec.toNat_sub_of_le (by rw [BitVec.le_def]; show 16 ≤ _; omega)
          refine .inl ⟨by omega, _, rfl, rfl, by show (pe - 16).toNat = _; omega, fun a => ?_, fun hok => ?_⟩
          · have hg := get_writePadded s.work.wbuf 16 pe.toNat _ (by rw [← hr]; exact h3) a
            rw [← h2, ← hr, h3] at hg
            rw [h3]
            exact hg
          · rw [List.length_append, Memory.length_readBytes] at h2
            refine Memory.zeroFill_ok _ _ _ _ (Memory.writeBytes_ok _ _ _ _ hok ?_)
            rw [List.length_append, Memory.length_readBytes]
            omega
      · rw [he]
        rw [← hr] at h2
        exact .inr ⟨by omega, rfl⟩
      · omega

/-- What step 3 leaves: the payload bytes written at 16 + AAD_PADDED_LEN, the layout registers, nothing else changed
(R163, R164). -/
structure PayloadWritten (s u : State) (bs : List Byte) : Prop where
  rest : u = { s with work := { s.work with
    wbuf := u.work.wbuf, payloadOffset := u.work.payloadOffset, ppad := u.work.ppad, wbufLen := u.work.wbufLen } }
  offset : u.work.payloadOffset.toNat = 16 + s.work.aadPaddedLen.toNat
  ppad : u.work.ppad.toNat = (padTo16 (s.host.inp.readBytes 0 s.work.plen.toNat)).length
  wbufLen : u.work.wbufLen.toNat = 16 + s.work.aadPaddedLen.toNat + bs.length
  bytes : ∀ a, u.work.wbuf.get a =
    if 16 + s.work.aadPaddedLen.toNat ≤ a ∧ a < 16 + s.work.aadPaddedLen.toNat + bs.length then
      bs.getD (a - (16 + s.work.aadPaddedLen.toNat)) 0 else s.work.wbuf.get a
  ok : s.work.wbuf.ok s.cap → u.work.wbuf.ok s.cap

/-- Step 3 on encrypt (R163): the padded payload, or TooBig with nothing written. -/
theorem composePlaintext_cases (s : State) {p : List Byte} (hp : p = s.host.inp.readBytes 0 s.work.plen.toNat) :
    (16 + s.work.aadPaddedLen.toNat + (padTo16 p).length ≤ s.cap
      ∧ ∃ u, composePlaintext s = .value () u ∧ PayloadWritten s u (padTo16 p))
    ∨ (s.cap < 16 + s.work.aadPaddedLen.toNat + (padTo16 p).length ∧ composePlaintext s = .raised .tooBig s) := by
  have hc := cap_bounds s
  have h16 : (16 : Word).toNat = 16 := rfl
  have hl : p.length = s.work.plen.toNat := by rw [hp, Memory.length_readBytes]
  have hq := length_padTo16 p
  unfold composePlaintext encryptLayout
  rcases addChecked_cases 16 s.work.aadPaddedLen with ⟨a1, po, e1, a2⟩ | ⟨a1, e1⟩
  · rcases roundUp16_cases s.work.plen with ⟨b1, pp, e2, b2, b3, b4⟩ | ⟨b1, e2⟩
    · have hpp : pp.toNat = (padTo16 p).length := length_padTo16_unique b2 (by omega) (by omega)
      rcases addChecked_cases po pp with ⟨c1, pe, e3, c2⟩ | ⟨c1, e3⟩
      · simp only [e1, e2, e3, bind, Except.bind, pure, Except.pure, Run.ofExcept_ok, Run.bind_value]
        by_cases h4 : s.cap < pe.toNat
        · rw [if_pos h4]
          exact .inr ⟨by omega, rfl⟩
        · rw [if_neg h4]
          have hpo : po.toNat = 16 + s.work.aadPaddedLen.toNat := by omega
          refine .inl ⟨by omega, _, rfl, rfl, hpo, by rw [← hp]; exact hpp, by show pe.toNat = _; omega,
            fun a => ?_, fun hok => ?_⟩
          · have hg := get_writePadded s.work.wbuf po.toNat pe.toNat p (by omega) a
            rw [hl] at hg
            rw [← hpo, ← hpp, ← c2]
            rw [← hp]
            exact hg
          · refine Memory.zeroFill_ok _ _ _ _ (Memory.writeBytes_ok _ _ _ _ hok ?_)
            rw [Memory.length_readBytes]
            omega
      · simp only [e1, e2, e3, bind, Except.bind, Run.ofExcept_error, Run.bind_raised]
        exact .inr ⟨by omega, trivial⟩
    · simp only [e1, e2, bind, Except.bind, Run.ofExcept_error, Run.bind_raised]
      exact .inr ⟨by omega, trivial⟩
  · simp only [e1, bind, Except.bind, Run.ofExcept_error, Run.bind_raised]
    exact .inr ⟨by omega, trivial⟩

/-- Step 3 on decrypt (R164): the whole input unpadded, or TooBig with nothing written. -/
theorem composeCiphertext_cases (s : State) {p : List Byte} (hp : p = s.host.inp.readBytes 0 s.work.plen.toNat) :
    (16 + s.work.aadPaddedLen.toNat + s.host.inputLen.toNat ≤ s.cap
        ∧ 16 + s.work.aadPaddedLen.toNat + (padTo16 p).length ≤ s.cap
        ∧ ∃ u, composeCiphertext s = .value () u
          ∧ PayloadWritten s u (s.host.inp.readBytes 0 s.host.inputLen.toNat))
    ∨ ((s.cap < 16 + s.work.aadPaddedLen.toNat + s.host.inputLen.toNat
        ∨ s.cap < 16 + s.work.aadPaddedLen.toNat + (padTo16 p).length)
      ∧ composeCiphertext s = .raised .tooBig s) := by
  have hc := cap_bounds s
  have h16 : (16 : Word).toNat = 16 := rfl
  have hl : p.length = s.work.plen.toNat := by rw [hp, Memory.length_readBytes]
  have hq := length_padTo16 p
  unfold composeCiphertext decryptLayout decryptFrameEnd
  rcases addChecked_cases 16 s.work.aadPaddedLen with ⟨a1, po, e1, a2⟩ | ⟨a1, e1⟩
  · rcases addChecked_cases po s.host.inputLen with ⟨c1, pend, e3, c2⟩ | ⟨c1, e3⟩
    · simp only [e1, e3, bind, Except.bind, pure, Except.pure, Run.ofExcept_ok, Run.bind_value]
      by_cases h4 : s.cap < pend.toNat
      · rw [if_pos h4]
        exact .inr ⟨.inl (by omega), rfl⟩
      · rw [if_neg h4]
        rcases roundUp16_cases s.work.plen with ⟨b1, pp, e2, b2, b3, b4⟩ | ⟨b1, e2⟩
        · have hpp : pp.toNat = (padTo16 p).length := length_padTo16_unique b2 (by omega) (by omega)
          rcases addChecked_cases po pp with ⟨d1, fe, e4, d2⟩ | ⟨d1, e4⟩
          · simp only [e2, e4, Run.ofExcept_ok, Run.bind_value]
            by_cases h5 : s.cap < fe.toNat
            · rw [if_pos h5]
              exact .inr ⟨.inr (by omega), rfl⟩
            · rw [if_neg h5]
              have hpo : po.toNat = 16 + s.work.aadPaddedLen.toNat := by omega
              refine .inl ⟨by omega, by omega, _, rfl, rfl, hpo, by rw [← hp]; exact hpp, ?_, fun a => ?_,
                fun hok => ?_⟩
              · show pend.toNat = _
                rw [Memory.length_readBytes]
                omega
              · rw [← hpo]
                exact Memory.get_writeBytes ..
              · refine Memory.writeBytes_ok _ _ _ _ hok ?_
                rw [Memory.length_readBytes]
                omega
          · simp only [e2, e4, Run.ofExcept_error, Run.bind_raised]
            exact .inr ⟨.inr (by omega), trivial⟩
        · simp only [e2, Run.ofExcept_error, Run.bind_raised]
          exact .inr ⟨.inr (by omega), trivial⟩
    · simp only [e1, e3, bind, Except.bind, Run.ofExcept_error, Run.bind_raised]
      exact .inr ⟨.inl (by omega), trivial⟩
  · simp only [e1, bind, Except.bind, Run.ofExcept_error, Run.bind_raised]
    exact .inr ⟨.inl (by omega), trivial⟩

/-- The state in which step 4 makes its call: CTR0 in CTR, KEY_USED set (R165). -/
abbrev State.atCounterCall (s : State) : State :=
  s.startKeyUse ((encodeCtrM s.nonceBytes s.host.nonceLen 0).getD Block.zero)

/-- Step 4 (R165): S0 from the answer, CTR1 in CTR, KEY_USED set; EngineFailure or stuck with CTR0 in CTR. -/
theorem composeCounter_eq {s : State} (h : legalNonceLen s.host.nonceLen = true) :
    composeCounter s = match s.nextAnswer s.atCounterCall.ecbCall with
      | .ok out _ => .value () { s.issue s.atCounterCall.ecbCall with work := { s.work with
          s0 := out, ctr := (encodeCtrM s.nonceBytes s.host.nonceLen 1).getD Block.zero, keyUsed := true } }
      | .fail => .raised .engineFailure (s.atCounterCall.issue s.atCounterCall.ecbCall)
      | .noReturn => .stuck (s.atCounterCall.issue s.atCounterCall.ecbCall) := by
  unfold composeCounter
  rw [encodeCtr0_eq s.nonceBytes h]
  simp only [Run.ofOption_some, Run.bind_value]
  have hn : s.atCounterCall.nextAnswer s.atCounterCall.ecbCall = s.nextAnswer s.atCounterCall.ecbCall := rfl
  unfold requestEcb
  cases ha : s.nextAnswer s.atCounterCall.ecbCall with
  | ok out d =>
    rw [request_ok (hn.trans ha)]
    simp only [Run.bind_value, State.advanceCtr]
    rw [← ctr0_set s.nonceBytes h]
    rfl
  | fail =>
    rw [request_fail (hn.trans ha)]
    rfl
  | noReturn =>
    rw [request_noReturn (hn.trans ha)]
    rfl

end Sys2Proof.Machine
end

