-- ==== Sys2Proof/Laws/PerInstr.lean ====
section
/-! SUPPORT. The family `SelectorPresence`: which operations something selects (R105, R120). One lemma per
constructor of `Instr`. -/

namespace Sys2Proof.Laws

/-- The operation is a row of the formats `function` or `call`: invoked inside a phase step, selected by nothing. -/
def isInner : Instr → Bool
  | .ccmEncrypt _ => false
  | .ccmDecrypt _ => false
  | .nop _ => false
  | .cmdReserved _ _ _ => false
  | .idle => false
  | .validateArgs => false
  | .composeFrame => false
  | .tagPrepareEnc => false
  | .tagPrepareDec => false
  | .cipherPayload => false
  | .tagFinalize => false
  | .tagVerify => false
  | .emitResultEnc => false
  | .emitResultDec => false
  | .cleanup => false
  | .hwr _ _ => false
  | .hrd _ => false
  | .hwrb _ _ _ => false
  | .hrdb _ _ => false
  | .poll => false
  | .ccmProcess _ => false
  | .cadd32 _ _ => true
  | .ceil16 _ => true
  | .encB0Flags _ _ _ _ => true
  | .encB0 _ _ _ _ _ => true
  | .encCtr0Flags _ => true
  | .encCtr0 _ _ => true
  | .encAadLen _ => true
  | .lenFits _ _ => true
  | .ctrM _ _ _ => true
  | .compose => true
  | .computeTag _ => true
  | .xorMask _ _ _ => true
  | .verify _ _ _ => true
  | .cipherPayloadFn _ _ => true
  | .ecbEncryptBlock => true
  | .ctrEncrypt _ _ => true
  | .cbcMac _ => true
  | .keyslotErase => true
  | .reset => false

/-- The encoder has a selector for an operation exactly when the operation is no inner one. -/
def SelectorPresence.Statement (i : Instr) : Prop := (encode i).isNone = isInner i

theorem SelectorPresence.ccmEncrypt (keep : Bool) : SelectorPresence.Statement (.ccmEncrypt keep) := rfl
theorem SelectorPresence.ccmDecrypt (keep : Bool) : SelectorPresence.Statement (.ccmDecrypt keep) := rfl
theorem SelectorPresence.nop (ignored : BitVec 31) : SelectorPresence.Statement (.nop ignored) := rfl
theorem SelectorPresence.cmdReserved (reserved : BitVec 29) (keep : Bool) (isEnc : Bool) : SelectorPresence.Statement (.cmdReserved reserved keep isEnc) := rfl
theorem SelectorPresence.idle : SelectorPresence.Statement .idle := rfl
theorem SelectorPresence.validateArgs : SelectorPresence.Statement .validateArgs := rfl
theorem SelectorPresence.composeFrame : SelectorPresence.Statement .composeFrame := rfl
theorem SelectorPresence.tagPrepareEnc : SelectorPresence.Statement .tagPrepareEnc := rfl
theorem SelectorPresence.tagPrepareDec : SelectorPresence.Statement .tagPrepareDec := rfl
theorem SelectorPresence.cipherPayload : SelectorPresence.Statement .cipherPayload := rfl
theorem SelectorPresence.tagFinalize : SelectorPresence.Statement .tagFinalize := rfl
theorem SelectorPresence.tagVerify : SelectorPresence.Statement .tagVerify := rfl
theorem SelectorPresence.emitResultEnc : SelectorPresence.Statement .emitResultEnc := rfl
theorem SelectorPresence.emitResultDec : SelectorPresence.Statement .emitResultDec := rfl
theorem SelectorPresence.cleanup : SelectorPresence.Statement .cleanup := rfl
theorem SelectorPresence.hwr (reg : Word) (value : Word) : SelectorPresence.Statement (.hwr reg value) := rfl
theorem SelectorPresence.hrd (reg : Word) : SelectorPresence.Statement (.hrd reg) := rfl
theorem SelectorPresence.hwrb (space : Nat) (offset : Word) (value : Byte) : SelectorPresence.Statement (.hwrb space offset value) := rfl
theorem SelectorPresence.hrdb (space : Nat) (offset : Word) : SelectorPresence.Statement (.hrdb space offset) := rfl
theorem SelectorPresence.poll : SelectorPresence.Statement .poll := rfl
theorem SelectorPresence.ccmProcess (args : CcmArgs) : SelectorPresence.Statement (.ccmProcess args) := rfl
theorem SelectorPresence.cadd32 (a : Word) (b : Word) : SelectorPresence.Statement (.cadd32 a b) := rfl
theorem SelectorPresence.ceil16 (x : Word) : SelectorPresence.Statement (.ceil16 x) := rfl
theorem SelectorPresence.encB0Flags (nonceLen : Word) (tagLen : Word) (aadPresent : Bool) (payloadLen : Word) : SelectorPresence.Statement (.encB0Flags nonceLen tagLen aadPresent payloadLen) := rfl
theorem SelectorPresence.encB0 (nonce : NonceBytes) (nonceLen : Word) (tagLen : Word) (aadLen : Long) (payloadLen : Word) : SelectorPresence.Statement (.encB0 nonce nonceLen tagLen aadLen payloadLen) := rfl
theorem SelectorPresence.encCtr0Flags (nonceLen : Word) : SelectorPresence.Statement (.encCtr0Flags nonceLen) := rfl
theorem SelectorPresence.encCtr0 (nonce : NonceBytes) (nonceLen : Word) : SelectorPresence.Statement (.encCtr0 nonce nonceLen) := rfl
theorem SelectorPresence.encAadLen (aadLen : Long) : SelectorPresence.Statement (.encAadLen aadLen) := rfl
theorem SelectorPresence.lenFits (q : Nat) (payloadLen : Word) : SelectorPresence.Statement (.lenFits q payloadLen) := rfl
theorem SelectorPresence.ctrM (nonce : NonceBytes) (nonceLen : Word) (m : Nat) : SelectorPresence.Statement (.ctrM nonce nonceLen m) := rfl
theorem SelectorPresence.compose : SelectorPresence.Statement .compose := rfl
theorem SelectorPresence.computeTag (dataLen : Word) : SelectorPresence.Statement (.computeTag dataLen) := rfl
theorem SelectorPresence.xorMask (tag : List Byte) (s0 : Block) (tagLen : Word) : SelectorPresence.Statement (.xorMask tag s0 tagLen) := rfl
theorem SelectorPresence.verify (cand : List Byte) (exp : List Byte) (tagLen : Word) : SelectorPresence.Statement (.verify cand exp tagLen) := rfl
theorem SelectorPresence.cipherPayloadFn (off : Word) (len : Word) : SelectorPresence.Statement (.cipherPayloadFn off len) := rfl
theorem SelectorPresence.ecbEncryptBlock : SelectorPresence.Statement .ecbEncryptBlock := rfl
theorem SelectorPresence.ctrEncrypt (off : Word) (len : Word) : SelectorPresence.Statement (.ctrEncrypt off len) := rfl
theorem SelectorPresence.cbcMac (len : Word) : SelectorPresence.Statement (.cbcMac len) := rfl
theorem SelectorPresence.keyslotErase : SelectorPresence.Statement .keyslotErase := rfl
theorem SelectorPresence.reset : SelectorPresence.Statement .reset := rfl

end Sys2Proof.Laws
end

