-- ==== Sys2Proof/Laws/Words.lean ====
section
/-! SUPPORT. The bits of CMD words and how they decode (R100, R101). -/

namespace Sys2Proof

/-- Bit i of a CMD word made from its fields. -/
theorem getLsbD_cmdWord (r : BitVec 29) (k e g : Bool) (i : Nat) :
    (cmdWord r k e g).getLsbD i = if i = 0 then g else if i = 1 then e else if i = 2 then k else r.getLsbD (i - 3) := by
  unfold cmdWord
  simp only [BitVec.getLsbD_append, BitVec.getLsbD_ofBool]
  by_cases h0 : i = 0
  · simp [h0]
  · by_cases h1 : i = 1
    · simp [h1]
    · by_cases h2 : i = 2
      · simp [h2]
      · simp only [if_neg h0, if_neg h1, if_neg h2, if_neg (show ¬ i < 1 by omega), if_neg (show ¬ i - 1 < 1 by omega),
          if_neg (show ¬ i - 1 - 1 < 1 by omega)]
        congr 1

/-- Bit i of a NOP word. -/
theorem getLsbD_nopWord (x : BitVec 31) (i : Nat) :
    (x ++ BitVec.ofBool false : Word).getLsbD i = if i = 0 then false else x.getLsbD (i - 1) := by
  simp only [BitVec.getLsbD_append, BitVec.getLsbD_ofBool]
  by_cases h0 : i = 0
  · simp [h0]
  · simp [h0, show ¬ i < 1 by omega]

/-- Every word is the CMD word of its own fields. -/
theorem cmdWord_fields (w : Word) :
    cmdWord (w.extractLsb' 3 29) (w.getLsbD 2) (w.getLsbD 1) (w.getLsbD 0) = w := by
  apply BitVec.eq_of_getLsbD_eq
  intro i hi
  rw [getLsbD_cmdWord]
  split_ifs with h0 h1 h2
  · rw [h0]
  · rw [h1]
  · rw [h2]
  · rw [BitVec.getLsbD_extractLsb', show 3 + (i - 3) = i by omega]
    simp [show i - 3 < 29 by omega]

/-- Every word with GO = 0 is the NOP word of its other bits. -/
theorem nopWord_fields (w : Word) (h : w.getLsbD 0 = false) : (w.extractLsb' 1 31 ++ BitVec.ofBool false : Word) = w := by
  apply BitVec.eq_of_getLsbD_eq
  intro i hi
  rw [getLsbD_nopWord]
  split_ifs with h0
  · rw [h0, h]
  · rw [BitVec.getLsbD_extractLsb', show 1 + (i - 1) = i by omega]
    simp [show i - 1 < 31 by omega]

theorem extract_cmdWord (r : BitVec 29) (k e g : Bool) : (cmdWord r k e g).extractLsb' 3 29 = r := by
  apply BitVec.eq_of_getLsbD_eq
  intro i hi
  simp [getLsbD_cmdWord, hi, show 3 + i ≠ 1 by omega, show 3 + i ≠ 2 by omega]

theorem extract_nopWord (x : BitVec 31) : (x ++ BitVec.ofBool false : Word).extractLsb' 1 31 = x := by
  apply BitVec.eq_of_getLsbD_eq
  intro i hi
  rw [BitVec.getLsbD_extractLsb', getLsbD_nopWord]
  simp [hi]

/-- A CMD word read as a number. -/
theorem toNat_cmdWord (r : BitVec 29) (k e g : Bool) :
    (cmdWord r k e g).toNat = 8 * r.toNat + 4 * k.toNat + 2 * e.toNat + g.toNat := by
  have happ : ∀ (n : Nat) (x : BitVec n) (b : Bool), (x ++ BitVec.ofBool b).toNat = 2 * x.toNat + b.toNat := by
    intro n x b
    rw [BitVec.toNat_append, ← Nat.shiftLeft_add_eq_or_of_lt (by simpa using (BitVec.ofBool b).isLt), Nat.shiftLeft_eq]
    simp
    omega
  have h : (cmdWord r k e g).toNat = (r ++ BitVec.ofBool k ++ BitVec.ofBool e ++ BitVec.ofBool g).toNat := rfl
  rw [h, happ, happ, happ]
  omega

end Sys2Proof
end

