-- ==== Sys2Proof/Tests/Slice0.lean ====
section
/-! SUPPORT. Tests of the model against values of the spec (95_test_vectors.md, and the tables of 30_encoding.md), and
for every statement with hypotheses a witness that meets them. Every expected value is the spec's or computed
by hand from the rule named. -/

namespace Sys2Proof.Tests

open Sys2Proof Sys2Proof.Machine

/-! ### Helpers -/

/-- Bytes from numbers. -/
def bytes (l : List Nat) : List Byte := l.map (BitVec.ofNat 8)

/-- A byte space holding non-zero bytes from an offset on. -/
def cells (x : Nat) (l : List Nat) : Memory := (l.zipIdx x).map fun p => (p.2, BitVec.ofNat 8 p.1)

/-- A 16-byte block: the given bytes, then zeros. -/
def block (l : List Nat) : Block := fit 16 (bytes l)

/-- The nonce A0 .. AC of the vectors, as numbers. -/
def nonceNumbers : List Nat := [0xA0, 0xA1, 0xA2, 0xA3, 0xA4, 0xA5, 0xA6, 0xA7, 0xA8, 0xA9, 0xAA, 0xAB, 0xAC]

/-- The nonce as an operand. -/
def nonceOperand : NonceBytes := fit 13 (bytes nonceNumbers)

/-- The toy block function of 95_test_vectors.md section 4. -/
def toyE (b : Block) : Block :=
  fit 16 ((b.toList.tail ++ b.toList.take 1).zipIdx.map fun p => p.1 ^^^ BitVec.ofNat 8 (17 * p.2))

/-- The idle block with CAP = 64 and T1's parameters: NONCE_LEN 13, TAG_LEN 4, no AAD, IN = 01 .. 05. -/
def idleState : State :=
  { State.reset with
    capUnits := 2
    host := { HostOwned.zero with nonceLen := 13, tagLen := 4, inputLen := 5, nonce := cells 0 nonceNumbers,
                                  inp := cells 0 [1, 2, 3, 4, 5] } }

/-- The block in a phase of a command. -/
def running (p : Phase) (latch : Word) (s : State) : State :=
  { s with ctl := { phase := p, cmdLatch := latch }, result := { s.result with busy := true } }

/-- The collaborator's next answers. -/
def answered (as : List Answer) (s : State) : State := { s with env := { s.env with answers := as } }

/-- Pending events. -/
def pending (es : List Event) (s : State) : State := { s with env := { s.env with events := es } }

/-- The outcome is a next state that passes a check. -/
def passes (o : Host.Outcome State Fault Refusal) (p : State → Bool) : Bool :=
  match o with
  | .next t => p t
  | _ => false

/-- The outcome is a next state whose returned value is r. -/
def returns (o : Host.Outcome State Fault Refusal) (r : Resp) : Bool := passes o fun t => t.env.resp == r

/-- The outcome is a next state whose ERR is e, in CLEANUP. -/
def fails (o : Host.Outcome State Fault Refusal) (e : CcmError) : Bool :=
  passes o fun t => t.result.err == some e && t.ctl.phase == .cleanup

/-- S0 of T1. -/
def s0T1 : Block := block [0xA0, 0xB0, 0x80, 0x90, 0xE0, 0xF0, 0xC0, 0xD0, 0x20, 0x30, 0, 0x10, 0x60, 0xDD, 0xEE, 0xFE]

/-- CTR1 of T1, and the counter after one block. -/
def ctrT1 (m : Nat) : Block := block ([1] ++ nonceNumbers ++ [0, m])

/-- The MAC of T1's frame. -/
def macT1 : Block :=
  block [0xB2, 0x92, 0xB6, 0xD6, 0xB4, 0x95, 0xB6, 0x57, 0xB8, 0x99, 0xBA, 0xDB, 0x11, 0x36, 0x18, 0x5E]

/-- T1's enciphered payload region. -/
def regionT1 : List Nat := [0xA1, 0xB2, 0x83, 0x94, 0xE5, 0xF0, 0xC0, 0xD0, 0x20, 0x30, 0, 0x10, 0x60, 0xDD, 0xEF, 0xFE]

/-- T1's frame without its padding: B0 and the payload. -/
def frameT1 : List Nat := [9] ++ nonceNumbers ++ [0, 5, 1, 2, 3, 4, 5]

/-- The working registers of T1 after COMPOSE_FRAME. -/
def workT1 : Working :=
  { Working.zero with
    keyUsed := true, q := 2, plen := 5, ppad := 16, payloadOffset := 16, wbufLen := 32, ctr := ctrT1 1, s0 := s0T1
    wbuf := Memory.writeBytes [] 0 (bytes frameT1) }

/-- T1 after COMPOSE_FRAME, in a phase. -/
def encT1 (p : Phase) : State := { running p 3 idleState with work := workT1 }

/-- T1d, the decrypt of T1's output, after COMPOSE_FRAME, in a phase. -/
def decT1 (p : Phase) : State :=
  { running p 1 { idleState with host := { idleState.host with inputLen := 9 } } with
    work := { workT1 with
      wbufLen := 25
      wbuf := Memory.writeBytes [] 0
        (bytes ([9] ++ nonceNumbers ++ [0, 5, 0xA1, 0xB2, 0x83, 0x94, 0xE5, 0x12, 0x22, 0x36, 0x46])) } }

/-- T1d after CIPHER_PAYLOAD, with a candidate tag. -/
def verifyT1 (cand : Block) : State :=
  { decT1 .tagVerify with work := { (decT1 .tagVerify).work with
      wbufLen := 32, candTag := cand
      wbuf := Memory.writeBytes [] 0
        (bytes (frameT1 ++ [0xF0, 0xC0, 0xD0, 0x20, 0x30, 0, 0x10, 0x60, 0xDD, 0xEF, 0xFE])) } }

/-! ### Ill-formed operations are refused, one for each check of `Instr.wellFormed` -/

theorem test_illformed_cmdReserved : Instr.wellFormed (.cmdReserved 0 true true) = false := by decide
theorem test_illformed_encCtr0Flags : Instr.wellFormed (.encCtr0Flags 6) = false ∧ Instr.wellFormed (.encCtr0Flags 14) = false := by decide
theorem test_illformed_encCtr0 : Instr.wellFormed (.encCtr0 nonceOperand 14) = false := by decide
theorem test_illformed_lenFits : Instr.wellFormed (.lenFits 1 0) = false ∧ Instr.wellFormed (.lenFits 9 0) = false := by decide
theorem test_illformed_ctrM_nonceLen : Instr.wellFormed (.ctrM nonceOperand 6 0) = false := by decide
theorem test_illformed_ctrM_counter : Instr.wellFormed (.ctrM nonceOperand 13 65536) = false := by decide
theorem test_illformed_xorMask : Instr.wellFormed (.xorMask (bytes [1, 2]) s0T1 3) = false
    ∧ Instr.wellFormed (.xorMask (List.replicate 17 0) s0T1 17) = false := by decide
theorem test_illformed_verify : Instr.wellFormed (.verify (bytes [1]) (bytes [1, 2]) 2) = false
    ∧ Instr.wellFormed (.verify (bytes [1, 2]) (bytes [1]) 2) = false := by decide
theorem test_illformed_ctrEncrypt : Instr.wellFormed (.ctrEncrypt 16 5) = false ∧ Instr.wellFormed (.ctrEncrypt 16 0) = false := by decide
theorem test_illformed_cbcMac : Instr.wellFormed (.cbcMac 63) = false ∧ Instr.wellFormed (.cbcMac 0) = false := by decide

/-- The arguments of T1 as one call (R255). -/
def argsT1 : CcmArgs :=
  { isEncrypt := true, nonce := bytes nonceNumbers, nonceLen := 13, tagLen := 4, aad := [], aadLen := 0,
    input := bytes [1, 2, 3, 4, 5], inputLen := 5, keepKey := false }

theorem test_illformed_ccmProcess : Instr.wellFormed (.ccmProcess { argsT1 with nonceLen := 12 }) = false
    ∧ Instr.wellFormed (.ccmProcess { argsT1 with aadLen := 1 }) = false
    ∧ Instr.wellFormed (.ccmProcess { argsT1 with inputLen := 6 }) = false := by decide

/-! ### Decoding: the CMD words of 95_test_vectors.md 3.6 (R100, R101) and the PHASE codes of R104 -/

theorem test_decode_ccmEncrypt : decodeTableWord 32 0x00000003 = some (.ccmEncrypt false)
    ∧ decodeTableWord 32 0x00000007 = some (.ccmEncrypt true) := by decide
theorem test_decode_ccmDecrypt : decodeTableWord 32 0x00000001 = some (.ccmDecrypt false)
    ∧ decodeTableWord 32 0x00000005 = some (.ccmDecrypt true) := by decide
theorem test_decode_nop : decodeTableWord 32 0x00000006 = some (.nop 3)
    ∧ decodeTableWord 32 0xFFFFFFFE = some (.nop 0x7FFFFFFF) := by decide
theorem test_decode_cmdReserved : decodeTableWord 32 0x0000000B = some (.cmdReserved 1 false true)
    ∧ decodeTableWord 32 0x80000003 = some (.cmdReserved 0x10000000 false true) := by decide
theorem test_decode_idle : decodeTableWord 8 0 = some .idle := by decide
theorem test_decode_validateArgs : decodeTableWord 8 1 = some .validateArgs := by decide
theorem test_decode_composeFrame : decodeTableWord 8 2 = some .composeFrame := by decide
theorem test_decode_tagPrepare : decodeTableWord 8 0x13 = some .tagPrepareEnc
    ∧ decodeTableWord 8 3 = some .tagPrepareDec := by decide
theorem test_decode_cipherPayload : decodeTableWord 8 4 = some .cipherPayload ∧ decodeTableWord 8 0x14 = some .cipherPayload := by decide
theorem test_decode_tagFinalize : decodeTableWord 8 5 = some .tagFinalize := by decide
theorem test_decode_tagVerify : decodeTableWord 8 6 = some .tagVerify := by decide
theorem test_decode_emitResult : decodeTableWord 8 0x17 = some .emitResultEnc
    ∧ decodeTableWord 8 7 = some .emitResultDec := by decide
theorem test_decode_cleanup : decodeTableWord 8 8 = some .cleanup := by decide
theorem test_decode_unused_phase : decodeTableWord 8 9 = none ∧ decodeTableWord 8 15 = none ∧ decodeTableWord 8 32 = none := by decide
theorem test_decode_host : decode (.event (.hwr 7 23)) = .ok (.hwr 7 23) ∧ decode (.event (.hwr 0 3)) = .ok (.ccmEncrypt false)
    ∧ decode (.event (.hrd 8)) = .ok (.hrd 8) ∧ decode (.event (.hwrb 0 12 0xA5)) = .ok (.hwrb 0 12 0xA5)
    ∧ decode (.event (.hrdb 3 30)) = .ok (.hrdb 3 30) := by decide
theorem test_decode_pseudo : decode (.event .poll) = .ok .poll ∧ decode (.event (.ccmProcess argsT1)) = .ok (.ccmProcess argsT1)
    ∧ decode (.event .reset) = .ok .reset := by decide
theorem test_fetch_word : passes (step (idleState.withFetchWord 32 3)) (fun t => t.ctl.phase == .validateArgs) = true
    ∧ passes (step (idleState.withFetchWord 8 0x16)) (fun _ => true) = true := by decide

/-! ### One step of each operation -/

-- R244: CCM_ENCRYPT latches the word and starts; R246: while busy it sets REJ
theorem test_ccmEncrypt : passes (exec (.ccmEncrypt true) { idleState with result.out := cells 0 [9], result.done := true })
    (fun t => t.ctl.cmdLatch == 7 && t.result.status == 1 && t.result.out == [] && t.ctl.phase == .validateArgs) = true := by decide
theorem test_ccmEncrypt_busy : passes (exec (.ccmEncrypt true) (encT1 .emitResult))
    (fun t => t.result.status == 5 && t.ctl.cmdLatch == 3) = true := by decide
-- R244: CCM_DECRYPT
theorem test_ccmDecrypt : passes (exec (.ccmDecrypt false) idleState) (fun t => t.ctl.cmdLatch == 1 && t.result.busy) = true := by decide
-- R245
theorem test_nop : passes (exec (.nop 3) { idleState with result.done := true }) (fun t => t.result.status == 2 && t.ctl.cmdLatch == 0) = true := by decide
-- R252, E4f
theorem test_cmdReserved : passes (exec (.cmdReserved 0x10000000 false true) idleState)
    (fun t => t.ctl.cmdLatch == 0x80000003 && t.result.busy) = true := by decide
-- R218
theorem test_idle : passes (exec .idle idleState) (fun t => t == idleState) = true := by decide
-- R201: T1; E4g: TAG_LEN 5 and INPUT_LEN 70000 is InvalidArgument; E5
theorem test_validateArgs : passes (exec .validateArgs (running .validateArgs 3 idleState))
    (fun t => t.work.q == 2 && t.work.plen == 5 && t.ctl.phase == .composeFrame) = true := by decide
theorem test_validateArgs_order :
    fails (exec .validateArgs (running .validateArgs 3 { idleState with host.tagLen := 5, host.inputLen := 70000 })) .invalidArgument = true
    ∧ fails (exec .validateArgs (running .validateArgs 3 { idleState with host.inputLen := 65536 })) .badLength = true := by decide
-- T1 after COMPOSE_FRAME; L13 is TooBig
theorem test_composeFrame :
    passes (exec .composeFrame (answered [.ok s0T1 []] { running .composeFrame 3 idleState with work := { Working.zero with q := 2, plen := 5 } }))
      (fun t => t.work == workT1 && t.ctl.phase == .tagPrepare
        && t.env.calls == [.ecbEncryptBlock 0 (ctrT1 0)]) = true := by decide
theorem test_composeFrame_tooBig : fails (exec .composeFrame (running .composeFrame 3 { idleState with host.aadLenLo := 47 })) .tooBig = true := by decide
-- T1 after TAG_PREPARE
theorem test_tagPrepareEnc : passes (exec .tagPrepareEnc (answered [.ok macT1 []] (encT1 .tagPrepare)))
    (fun t => t.work.rawTag == block [0xB2, 0x92, 0xB6, 0xD6] && t.ctl.phase == .cipherPayload
      && t.env.calls == [.cbcMac 0 (bytes (frameT1 ++ List.replicate 11 0)) 32]) = true := by decide
-- T1d after TAG_PREPARE
theorem test_tagPrepareDec : passes (exec .tagPrepareDec (decT1 .tagPrepare))
    (fun t => t.work.candTag == block [0xB2, 0x92, 0xB6, 0xD6] && t.work.wbufLen == 32
      && t.work.wbuf.readBytes 16 10 == bytes [0xA1, 0xB2, 0x83, 0x94, 0xE5, 0, 0, 0, 0, 0]) = true := by decide
-- R205, R284: PPAD poked to 17 with PAYLOAD_OFFSET + 17 beyond CAP = 64: TAG_PREPARE makes no access there, CIPHER_PAYLOAD
-- gives BadState without a call
theorem test_poked_ppad :
    passes (exec .tagPrepareDec { decT1 .tagPrepare with work := { (decT1 .tagPrepare).work with payloadOffset := 48, plen := 5, ppad := 17 } })
      (fun t => t.work.wbufLen == 65 && t.ctl.phase == .cipherPayload && fails (exec .cipherPayload t) .badState
        && passes (exec .cipherPayload t) (fun u => u.env.calls == [])) = true := by decide
-- T1 after CIPHER_PAYLOAD; R191 for PPAD = 0
theorem test_cipherPayload : passes (exec .cipherPayload (answered [.ok (ctrT1 2) (bytes regionT1)] (encT1 .cipherPayload)))
    (fun t => t.work.wbuf.readBytes 16 16 == bytes regionT1 && t.work.ctr == ctrT1 2 && t.ctl.phase == .tagFinalize) = true := by decide
theorem test_cipherPayload_empty : passes (exec .cipherPayload (running .cipherPayload 1 idleState))
    (fun t => t.ctl.phase == .tagVerify && t.env.calls == []) = true := by decide
-- T1 after TAG_FINALIZE
theorem test_tagFinalize : passes (exec .tagFinalize { encT1 .tagFinalize with work.rawTag := block [0xB2, 0x92, 0xB6, 0xD6] })
    (fun t => t.work.mtag == block [0x12, 0x22, 0x36, 0x46] && t.ctl.phase == .emitResult) = true := by decide
-- T1d and V3 after TAG_VERIFY
theorem test_tagVerify : passes (exec .tagVerify (answered [.ok macT1 []] (verifyT1 (block [0xB2, 0x92, 0xB6, 0xD6]))))
    (fun t => t.work.verifyOk && t.work.rawTag == block [0xB2, 0x92, 0xB6, 0xD6] && t.ctl.phase == .emitResult
      && t.env.calls == [.cbcMac 0 (bytes (frameT1 ++ List.replicate 11 0)) 32]) = true := by decide
theorem test_tagVerify_mismatch :
    fails (exec .tagVerify (answered [.ok macT1 []] (verifyT1 (block [0xB2, 0x92, 0xB6, 0xD7])))) .authenticationFailed = true := by decide
-- T1 after EMIT_RESULT
theorem test_emitResultEnc : passes (exec .emitResultEnc { encT1 .emitResult with
      work := { workT1 with mtag := block [0x12, 0x22, 0x36, 0x46], wbuf := workT1.wbuf.writeBytes 16 (bytes regionT1) } })
    (fun t => t.result.out.readBytes 0 10 == bytes [0xA1, 0xB2, 0x83, 0x94, 0xE5, 0x12, 0x22, 0x36, 0x46, 0]
      && t.result.outLen == 9 && t.ctl.phase == .cleanup) = true := by decide
-- T1d after EMIT_RESULT
theorem test_emitResultDec : passes (exec .emitResultDec (verifyT1 Block.zero))
    (fun t => t.result.out.readBytes 0 6 == bytes [1, 2, 3, 4, 5, 0] && t.result.outLen == 5 && t.ctl.phase == .cleanup) = true := by decide
-- T1's CLEANUP; F4: the erase fails and the output is withdrawn
theorem test_cleanup : passes (exec .cleanup (answered [.ok Block.zero []] { encT1 .cleanup with result.out := cells 0 [7], result.outLen := 1 }))
    (fun t => t.result.status == 2 && t.work == Working.zero && t.ctl.cmdLatch == 0 && t.result.outLen == 1
      && t.env.calls == [.keyslotErase 0]) = true := by decide
theorem test_cleanup_eraseFails : passes (exec .cleanup (answered [.fail] { encT1 .cleanup with result.out := cells 0 [7], result.outLen := 1 }))
    (fun t => t.result.status == 0x62 && t.result.out == [] && t.result.outLen == 0) = true := by decide
-- R241: a register holds any 32-bit value; R251: OUT_LEN is read-only
theorem test_hwr : passes (exec (.hwr 4 0xFFFFFFFF) idleState) (fun t => t.hostRead 4 == 0xFFFFFFFF) = true
    ∧ passes (exec (.hwr 8 7) idleState) (fun t => t == idleState) = true := by decide
-- R242: every register of the table, CAPACITY and two unassigned numbers among them
theorem test_hrd : ([0, 1, 2, 3, 4, 5, 6, 7, 8, 9, 10, 0xFFFFFFFF].map fun r => returns (exec (.hrd r) { idleState with
      host := { idleState.host with keyCtx := 0x5A, aadLenLo := 8, aadLenHi := 1 }, result.done := true, result.outLen := 31 })
      (.word ([0, 2, 0x5A, 13, 4, 8, 1, 5, 31, 64, 0, 0].getD (min r.toNat 11) 99))) = List.replicate 12 true := by decide
-- R248: OUT_LEN reads 0 while busy
theorem test_hrd_busy : returns (exec (.hrd 8) { encT1 .emitResult with result.outLen := 9 }) (.word 0) = true := by decide
-- R243: bytes at both ends of a space; R250: `HWRB(0, 13, 0x09)` does nothing
theorem test_hwrb : passes (exec (.hwrb 2 63 9) idleState) (fun t => t.hostReadByte 2 63 == 9 && t.hostReadByte 2 0 == 1) = true := by decide
theorem test_hwrb_outOfRange : passes (exec (.hwrb 0 13 9) idleState) (fun t => t == idleState) = true
    ∧ passes (exec (.hwrb 3 0 9) idleState) (fun t => t == idleState) = true := by decide
-- R243, R250: bytes of each space, beyond NONCE, and of an unassigned selector
theorem test_hrdb : returns (exec (.hrdb 0 12) idleState) (.byte 0xAC) = true ∧ returns (exec (.hrdb 0 13) idleState) (.byte 0) = true
    ∧ returns (exec (.hrdb 2 4) idleState) (.byte 5) = true ∧ returns (exec (.hrdb 7 0) idleState) (.byte 0) = true := by decide
theorem test_hrdb_out : returns (exec (.hrdb 3 0) { idleState with result.out := cells 0 [0xA1] }) (.byte 0xA1) = true
    ∧ returns (exec (.hrdb 3 0) { encT1 .cleanup with result.out := cells 0 [0xA1] }) (.byte 0) = true := by decide
-- R253
theorem test_poll : returns (exec .poll { idleState with result.done := true }) (.word 2) = true
    ∧ passes (exec .poll (encT1 .cleanup)) (fun t => t.env.resp == .word 1 && t.env.events == [.tick, .poll]) = true := by decide
-- R255: T1's transactions, 5 registers, 13 + 5 bytes, START, poll, the reads
theorem test_ccmProcess : passes (exec (.ccmProcess argsT1) idleState)
    (fun t => t.env.events.length == 26 && t.env.events.take 6 == [.hwr 3 13, .hwr 4 4, .hwr 5 0, .hwr 6 0, .hwr 7 5, .hwrb 0 0 0xA0]
      && t.env.events.drop 23 == [.hwr 0 3, .poll, .ccmReturn]) = true := by decide
-- 95_test_vectors.md 3.2
theorem test_cadd32 : returns (exec (.cadd32 0xFFFFFFFF 0) idleState) (.word 0xFFFFFFFF) = true
    ∧ fails (exec (.cadd32 0x80000000 0x80000000) idleState) .tooBig = true := by decide
theorem test_ceil16 : returns (exec (.ceil16 17) idleState) (.word 32) = true ∧ returns (exec (.ceil16 32) idleState) (.word 32) = true
    ∧ returns (exec (.ceil16 4294967279) idleState) (.word 4294967280) = true ∧ fails (exec (.ceil16 4294967281) idleState) .tooBig = true := by decide
-- 95_test_vectors.md 3.1
theorem test_encB0Flags : returns (exec (.encB0Flags 13 16 false 20) idleState) (.byte 0x39) = true
    ∧ returns (exec (.encB0Flags 7 16 true 0) idleState) (.byte 0x7F) = true := by decide
theorem test_encB0Flags_fails : fails (exec (.encB0Flags 13 4 false 65536) idleState) .badLength = true
    ∧ fails (exec (.encB0Flags 13 5 false 70000) idleState) .invalidArgument = true := by decide
theorem test_encB0 : returns (exec (.encB0 nonceOperand 10 12 1 0xDEADBEEF) idleState)
      (.bytes (bytes [0x6C, 0xA0, 0xA1, 0xA2, 0xA3, 0xA4, 0xA5, 0xA6, 0xA7, 0xA8, 0xA9, 0, 0xDE, 0xAD, 0xBE, 0xEF])) = true
    ∧ returns (exec (.encB0 nonceOperand 12 10 0x100000000 0x010203) idleState)
      (.bytes (bytes [0x62, 0xA0, 0xA1, 0xA2, 0xA3, 0xA4, 0xA5, 0xA6, 0xA7, 0xA8, 0xA9, 0xAA, 0xAB, 1, 2, 3])) = true := by decide
theorem test_encCtr0Flags : returns (exec (.encCtr0Flags 13) idleState) (.byte 1) = true
    ∧ returns (exec (.encCtr0Flags 7) idleState) (.byte 7) = true := by decide
theorem test_encCtr0 : returns (exec (.encCtr0 nonceOperand 10) idleState)
    (.bytes (bytes [4, 0xA0, 0xA1, 0xA2, 0xA3, 0xA4, 0xA5, 0xA6, 0xA7, 0xA8, 0xA9, 0, 0, 0, 0, 0])) = true := by decide
theorem test_encAadLen : returns (exec (.encAadLen 65279) idleState) (.aadPrefix (bytes [0xFE, 0xFF]) 2) = true
    ∧ returns (exec (.encAadLen 65280) idleState) (.aadPrefix (bytes [0xFF, 0xFE, 0, 0, 0xFF, 0]) 6) = true := by decide
theorem test_encAadLen_long : returns (exec (.encAadLen 0) idleState) (.aadPrefix [] 0) = true
    ∧ returns (exec (.encAadLen 4294967296) idleState) (.aadPrefix (bytes [0xFF, 0xFF, 0, 0, 0, 1, 0, 0, 0, 0]) 10) = true := by decide
theorem test_lenFits : returns (exec (.lenFits 2 65535) idleState) (.bit true) = true
    ∧ returns (exec (.lenFits 3 16777216) idleState) (.bit false) = true := by decide
-- R146 on the counter 2
theorem test_ctrM : returns (exec (.ctrM nonceOperand 13 2) idleState) (.bytes (ctrT1 2).toList) = true
    ∧ returns (exec (.ctrM nonceOperand 13 0x102) idleState) (.bytes (bytes ([1] ++ nonceNumbers ++ [1, 2]))) = true := by decide
-- L2
theorem test_compose : passes (exec .compose (answered [.ok s0T1 []] { running .composeFrame 3 idleState with work := { Working.zero with q := 2, plen := 5 } }))
    (fun t => t.work == workT1 && t.ctl.phase == .composeFrame) = true := by decide
-- 95_test_vectors.md 3.3
theorem test_computeTag : returns (exec (.computeTag 32) (answered [.ok macT1 []] (encT1 .tagPrepare))) (.bytes (bytes [0xB2, 0x92, 0xB6, 0xD6])) = true
    ∧ fails (exec (.computeTag 63) (encT1 .tagPrepare)) .badState = true := by decide
theorem test_xorMask : returns (exec (.xorMask (bytes [0xB2, 0x92, 0xB6, 0xD6]) s0T1 4) idleState) (.bytes (bytes [0x12, 0x22, 0x36, 0x46])) = true := by decide
theorem test_verify : returns (exec (.verify (bytes [0x2D, 0xC6, 0x97, 0xA9]) (bytes [0x2D, 0xC6, 0x97, 0xA8]) 4) idleState) (.bit false) = true
    ∧ returns (exec (.verify (bytes [0, 0, 0, 0]) (bytes [0, 0, 0, 0]) 4) idleState) (.bit true) = true := by decide
theorem test_cipherPayloadFn : fails (exec (.cipherPayloadFn 16 5) (encT1 .cipherPayload)) .badState = true
    ∧ passes (exec (.cipherPayloadFn 16 0) (encT1 .cipherPayload)) (fun t => t == encT1 .cipherPayload) = true := by decide
-- 95_test_vectors.md 3.7
theorem test_ecbEncryptBlock : passes (exec .ecbEncryptBlock (answered [.ok s0T1 []] { encT1 .composeFrame with work.ctr := ctrT1 0, work.s0 := Block.zero }))
    (fun t => t.work.s0 == s0T1 && t.work.ctr == ctrT1 0 && t.env.calls == [.ecbEncryptBlock 0 (ctrT1 0)]) = true := by decide
theorem test_ctrEncrypt : passes (exec (.ctrEncrypt 16 16) (answered [.ok (ctrT1 2) (bytes regionT1)] (encT1 .cipherPayload)))
    (fun t => t.work.wbuf.readBytes 16 17 == bytes (regionT1 ++ [0]) && t.work.ctr == ctrT1 2) = true := by decide
theorem test_cbcMac : returns (exec (.cbcMac 32) (answered [.ok macT1 []] (encT1 .tagPrepare))) (.bytes macT1.toList) = true := by decide
-- R263, F10: the erase's failure keeps the first error
theorem test_keyslotErase : passes (exec .keyslotErase (answered [.fail] { encT1 .cleanup with result.err := some .authenticationFailed }))
    (fun t => t.result.err == some .authenticationFailed) = true
    ∧ passes (exec .keyslotErase (answered [.fail] (encT1 .cleanup))) (fun t => t.result.err == some .engineFailure) = true := by decide
-- 95_test_vectors.md 3.8, R2
theorem test_reset : passes (exec .reset { encT1 .tagPrepare with host.keyCtx := 7 })
    (fun t => t.result.status == 0 && t.host == HostOwned.zero && t.work == Working.zero && t.ctl.phase == .idle && t.hostRead 9 == 64
      && t.env.calls == []) = true := by decide
-- 95_test_vectors.md 3.7: the reference contracts over the toy block function
theorem test_reference_ecb : toyE (ctrT1 0) = s0T1 := by decide
theorem test_reference_mac : referenceCbc toyE 2 Block.zero (bytes (frameT1 ++ List.replicate 11 0)) = macT1 := by decide
theorem test_reference_ctr : referenceCtr toyE 1 (ctrT1 1) (bytes ([1, 2, 3, 4, 5] ++ List.replicate 11 0)) = (bytes regionT1, ctrT1 2) := by decide

/-! ### Witnesses: states and operands that meet the hypotheses of each statement, at the boundary of each clause -/

theorem test_witness_DecodeOfEncodeIsIdentity :
    (Instr.wellFormed (.cmdReserved 0x1FFFFFFF true true) = true ∧ (∀ v, Instr.cmdReserved 0x1FFFFFFF true true ≠ .hwr 0 v)
      ∧ encode (.cmdReserved 0x1FFFFFFF true true) = some (.event (.hwr 0 0xFFFFFFFF)))
    ∧ (Instr.wellFormed (.hwr 1 3) = true ∧ (∀ v, Instr.hwr 1 3 ≠ .hwr 0 v) ∧ encode (.hwr 1 3) = some (.event (.hwr 1 3)))
    ∧ encode .tagPrepareEnc = some (.phase 3 true) ∧ Instr.wellFormed .tagPrepareEnc = true
    ∧ (∀ v, Instr.tagPrepareEnc ≠ .hwr 0 v) := by
  refine ⟨⟨by decide, nofun, by decide⟩, ⟨by decide, ?_, by decide⟩, by decide, by decide, nofun⟩
  intro v h
  exact absurd (Instr.hwr.inj h).1 (by decide)
theorem test_witness_CmdWordDecodesByMask :
    (0xFFFFFFFE#32 &&& 1#32 = 0#32 ∧ 0#32 &&& 1#32 = 0#32)
    ∧ (7#32 &&& 0xFFFFFFFB#32 = 3#32 ∧ 3#32 &&& 0xFFFFFFFB#32 = 3#32)
    ∧ (5#32 &&& 0xFFFFFFFB#32 = 1#32 ∧ 1#32 &&& 0xFFFFFFFB#32 = 1#32)
    ∧ (9#32 &&& 1#32 = 1#32 ∧ 9#32 &&& 0xFFFFFFF8#32 ≠ 0#32)
    ∧ (0xFFFFFFFF#32 &&& 1#32 = 1#32 ∧ 0xFFFFFFFF#32 &&& 0xFFFFFFF8#32 ≠ 0#32) := by decide
theorem test_witness_PhaseCodesDecode : 9 ≤ (9#4).toNat ∧ 9 ≤ (15#4).toNat := by decide
theorem test_witness_StepRunsDecodedOperation :
    ((encT1 .tagFinalize).nextEvent = .tick ∧ (encT1 .tagFinalize).hung = false
      ∧ decode ((encT1 .tagFinalize).selector .tick) = .ok .tagFinalize)
    ∧ ((pending [.reset] (encT1 .cleanup).hang).nextEvent = .reset
      ∧ decode ((pending [.reset] (encT1 .cleanup).hang).selector .reset) = .ok .reset) := by decide
theorem test_witness_StuckOrchestratorStandsStill :
    (encT1 .cleanup).hang.nextEvent = .tick ∧ (encT1 .cleanup).hang.hung = true := by decide
theorem test_witness_HwrStoresRegister :
    2 ≤ (2 : Word).toNat ∧ (2 : Word).toNat ≤ 7 ∧ 2 ≤ (7 : Word).toNat ∧ (7 : Word).toNat ≤ 7 ∧ idleState.result.busy = false := by decide
theorem test_witness_BusyWritesOnlySetRej :
    (encT1 .cleanup).result.busy = true
    ∧ (2 ≤ (2 : Word).toNat ∧ (2 : Word).toNat ≤ 7) ∧ (2 ≤ (7 : Word).toNat ∧ (7 : Word).toNat ≤ 7)
    ∧ ((12 : Word).toNat < (if 0 = 0 then 13 else (encT1 .cleanup).cap))
    ∧ ((63 : Word).toNat < (if 1 = 0 then 13 else (encT1 .cleanup).cap))
    ∧ (2 ≤ 2 ∧ (63 : Word).toNat < (if 2 = 0 then 13 else (encT1 .cleanup).cap)) := by decide
theorem test_witness_WritesWithoutTargetDoNothing :
    (1 : Word).toNat = 1 ∧ 8 ≤ (8 : Word).toNat ∧ 8 ≤ (0xFFFFFFFF : Word).toNat ∧ (3 ≤ 3)
    ∧ ((if 0 = 0 then 13 else idleState.cap) ≤ (13 : Word).toNat) ∧ ((if 2 = 0 then 13 else idleState.cap) ≤ (64 : Word).toNat) := by decide
theorem test_witness_HrdReturnsRegister : (0 : Word).toNat = 0 ∧ (1 : Word).toNat = 1 ∧ (7 : Word).toNat = 7
    ∧ (8 : Word).toNat = 8 ∧ (9 : Word).toNat = 9 ∧ 10 ≤ (10 : Word).toNat ∧ 10 ≤ (0xFFFFFFFF : Word).toNat := by decide
theorem test_witness_HwrbStoresByte : (12 : Word).toNat < 13 ∧ (63 : Word).toNat < idleState.cap ∧ idleState.result.busy = false := by decide
theorem test_witness_HrdbReturnsByte : ((12 : Word).toNat < 13 ∧ idleState.hostReadByte 0 12 = 0xAC)
    ∧ (¬ (13 : Word).toNat < 13 ∧ idleState.hostReadByte 0 13 = 0)
    ∧ ((63 : Word).toNat < idleState.cap ∧ idleState.hostReadByte 2 63 = 0)
    ∧ (¬ (64 : Word).toNat < idleState.cap ∧ idleState.hostReadByte 1 64 = 0)
    ∧ idleState.hostReadByte 4 0 = 0 := by decide
theorem test_witness_StartAcceptsCommand : idleState.result.busy = false := by decide
theorem test_witness_NopWritesNothing : idleState.result.busy = false := by decide
theorem test_witness_PollReadsStatus : idleState.result.busy = false ∧ (encT1 .cleanup).result.busy = true := by decide
theorem test_witness_CcmProcessIssuesTransactions : argsT1.wellFormed = true := by decide
theorem test_witness_CcmReturnReportsResult :
    ((pending [.ccmReturn] { idleState with result.outLen := 64 }).nextEvent = .ccmReturn
      ∧ (pending [.ccmReturn] { idleState with result.outLen := 64 }).result.busy = false
      ∧ (pending [.ccmReturn] { idleState with result.outLen := 64 }).result.outLen.toNat
        ≤ (pending [.ccmReturn] { idleState with result.outLen := 64 }).cap)
    ∧ ((pending [.ccmReturn] { idleState with result.err := some .tooBig }).nextEvent = .ccmReturn
      ∧ (pending [.ccmReturn] { idleState with result.err := some .tooBig }).result.busy = false
      ∧ (pending [.ccmReturn] { idleState with result.err := some .tooBig }).result.outLen.toNat ≤ idleState.cap) := by decide
theorem test_witness_ResetZeroesEverything : (8 : Word).toNat ≠ 9 ∧ (10 : Word).toNat ≠ 9 := by decide
theorem test_witness_FailureEntryRecordsFirstError :
    (running .validateArgs 9 idleState).ctl.cmdLatch &&& 0xFFFFFFF8#32 ≠ 0#32
    ∧ (running .validateArgs 9 idleState).result.err = none
    ∧ (running .validateArgs 9 { idleState with result.err := some .engineFailure }).result.err ≠ none := by decide

/-- A state whose next call is answered in one way. -/
def callState (a : Answer) : State := answered [a] (encT1 .cipherPayload)

/-- The ecb_encrypt_block call of `callState`. -/
def ecbCall : Call := .ecbEncryptBlock 0 (ctrT1 1)
/-- Its ctr_encrypt call. -/
def ctrCall : Call := .ctrEncrypt 0 (ctrT1 1) ((encT1 .cipherPayload).work.wbuf.readBytes 16 16) 16
/-- Its cbc_mac call. -/
def macCall : Call := .cbcMac 0 ((encT1 .cipherPayload).work.wbuf.readBytes 0 32) 32
/-- Its keyslot_erase call. -/
def eraseCall : Call := .keyslotErase 0

/-- T1 at COMPOSE_FRAME, its call answered in one way. -/
def composeEncWith (a : Answer) : State := answered [a] (running .composeFrame 3 { idleState with work.plen := 5 })
/-- T1d at COMPOSE_FRAME, its call answered in one way. -/
def composeDecWith (a : Answer) : State :=
  answered [a] (running .composeFrame 1 { idleState with work.plen := 5, host.inputLen := 9 })
/-- T1 at COMPOSE_FRAME, the block cipher answering. -/
def composeEnc : State := composeEncWith (.ok s0T1 [])
/-- T1d at COMPOSE_FRAME. -/
def composeDec : State := composeDecWith (.ok s0T1 [])
/-- T1d at TAG_VERIFY, its call answered in one way. -/
def verifyWith (a : Answer) : State := answered [a] (verifyT1 macT1)

/-- T1 and T1d at COMPOSE_FRAME reach their call, T1d at TAG_VERIFY its own, whatever the answer. -/
theorem test_calls_reached :
    (composeEncWith .fail).frameFits ((composeEncWith .fail).message 5) ∧ (composeDecWith .fail).frameFits ((composeDecWith .fail).message 5)
    ∧ (composeEncWith .noReturn).frameFits ((composeEncWith .noReturn).message 5)
    ∧ (composeDecWith .noReturn).frameFits ((composeDecWith .noReturn).message 5)
    ∧ ((verifyT1 macT1).paddingFits ∧ (verifyT1 macT1).work.wbufLen.toNat % 16 = 0 ∧ 16 ≤ (verifyT1 macT1).work.wbufLen.toNat
      ∧ (verifyT1 macT1).work.wbufLen.toNat ≤ (verifyT1 macT1).cap)
    ∧ ((composeEncWith .fail).message 5).ctr 0 = ctrT1 0 ∧ ((composeDecWith .fail).message 5).ctr 0 = ctrT1 0
    ∧ macCall = .cbcMac 0 ((verifyT1 macT1).zeroPadding.work.wbuf.readBytes 0 32) 32 :=
  ⟨⟨by decide, by decide, by decide, by decide, rfl, by decide, by decide⟩,
    ⟨by decide, by decide, by decide, by decide, rfl, by decide, by decide⟩,
    ⟨by decide, by decide, by decide, by decide, rfl, by decide, by decide⟩,
    ⟨by decide, by decide, by decide, by decide, rfl, by decide, by decide⟩, by decide, by decide, by decide, by decide⟩

theorem test_witness_EngineFailureIsPropagated :
    (callState .fail).nextAnswer ecbCall = .fail ∧ ecbCall = .ecbEncryptBlock (callState .fail).host.keyCtx (callState .fail).work.ctr
    ∧ ((16 : Word).toNat % 16 = 0 ∧ (16 : Word) ≠ 0 ∧ (16 : Word).toNat + (16 : Word).toNat ≤ (callState .fail).cap
      ∧ (16 : Word) = (callState .fail).work.payloadOffset ∧ (16 : Word) = (callState .fail).work.ppad
      ∧ (callState .fail).nextAnswer ctrCall = .fail
      ∧ ctrCall = .ctrEncrypt (callState .fail).host.keyCtx (callState .fail).work.ctr
          ((callState .fail).work.wbuf.readBytes (16 : Word).toNat (16 : Word).toNat) 16)
    ∧ ((32 : Word).toNat % 16 = 0 ∧ 16 ≤ (32 : Word).toNat ∧ (32 : Word).toNat ≤ (callState .fail).cap
      ∧ (32 : Word) = (callState .fail).work.wbufLen ∧ (callState .fail).nextAnswer macCall = .fail
      ∧ macCall = .cbcMac (callState .fail).host.keyCtx ((callState .fail).work.wbuf.readBytes 0 (32 : Word).toNat) 32)
    ∧ ((composeEncWith .fail).nextAnswer (.ecbEncryptBlock 0 (ctrT1 0)) = .fail ∧ (composeDecWith .fail).nextAnswer (.ecbEncryptBlock 0 (ctrT1 0)) = .fail
      ∧ (verifyWith .fail).paddingFits ∧ (verifyWith .fail).nextAnswer macCall = .fail
      ∧ fails (exec .composeFrame (composeEncWith .fail)) .engineFailure = true
      ∧ fails (exec .tagVerify (verifyWith .fail)) .engineFailure = true) := by decide
theorem test_witness_UnansweredCallIsStuck :
    (callState .noReturn).nextAnswer ecbCall = .noReturn
    ∧ ((callState .noReturn).nextAnswer eraseCall = .noReturn ∧ eraseCall = .keyslotErase (callState .noReturn).host.keyCtx
      ∧ (callState .noReturn).work.keyUsed = true ∧ (callState .noReturn).keepKey = false)
    ∧ ((callState .noReturn).nextAnswer ctrCall = .noReturn ∧ (48 : Word).toNat + (16 : Word).toNat ≤ (callState .noReturn).cap
      ∧ (16 : Word) = (callState .noReturn).work.payloadOffset ∧ (16 : Word) = (callState .noReturn).work.ppad)
    ∧ ((callState .noReturn).nextAnswer macCall = .noReturn ∧ (64 : Word).toNat ≤ (callState .noReturn).cap ∧ 16 ≤ (16 : Word).toNat
      ∧ (32 : Word) = (callState .noReturn).work.wbufLen)
    ∧ ((composeEncWith .noReturn).nextAnswer (.ecbEncryptBlock 0 (ctrT1 0)) = .noReturn ∧ (composeDecWith .noReturn).nextAnswer (.ecbEncryptBlock 0 (ctrT1 0)) = .noReturn
      ∧ (verifyWith .noReturn).paddingFits ∧ (verifyWith .noReturn).nextAnswer macCall = .noReturn
      ∧ passes (exec .composeFrame (composeDecWith .noReturn)) (fun t => t.hung && t.work.keyUsed) = true
      ∧ passes (exec .tagVerify (verifyWith .noReturn)) (fun t => t.hung) = true) := by decide
theorem test_witness_MisalignedLengthIsBadState :
    (1 : Word).toNat % 16 ≠ 0 ∧ (63 : Word).toNat % 16 ≠ 0 ∧ (15 : Word).toNat < 16 ∧ (0 : Word).toNat < 16
    ∧ (5 : Word) = ({ encT1 .cipherPayload with work.ppad := 5 } : State).work.ppad
    ∧ (63 : Word) = ({ encT1 .tagPrepare with work.wbufLen := 63 } : State).work.wbufLen
    ∧ ((0 : Word) = ({ verifyT1 macT1 with work.wbufLen := 0 } : State).work.wbufLen
      ∧ ({ verifyT1 macT1 with work.wbufLen := 0 } : State).paddingFits) := by decide
theorem test_witness_OutsideDomainFaultOrBadState :
    ((6 : Word).toNat < 7 ∧ 13 < (14 : Word).toNat) ∧ 2 ^ (8 * (15 - (13 : Word).toNat)) ≤ 65536
    ∧ ((bytes [1]).length ≠ (0 : Word).toNat ∧ 16 < (17 : Word).toNat) ∧ (bytes [1]).length ≠ (2 : Word).toNat
    ∧ ((16 : Word).toNat % 16 = 0 ∧ 0 < (16 : Word).toNat ∧ idleState.cap < (49 : Word).toNat + (16 : Word).toNat)
    ∧ ((80 : Word).toNat % 16 = 0 ∧ idleState.cap < (80 : Word).toNat)
    ∧ (49 = ({ encT1 .cipherPayload with work.payloadOffset := 49 } : State).work.payloadOffset
      ∧ 80 = ({ encT1 .tagPrepare with work.wbufLen := 80 } : State).work.wbufLen
      ∧ ({ verifyT1 macT1 with work.wbufLen := 80 } : State).paddingFits)
    ∧ 16 < ({ idleState with host.tagLen := 17 } : State).host.tagLen.toNat
    ∧ (({ callState (.ok macT1 []) with host.tagLen := 17 } : State).nextAnswer macCall = .ok macT1 []
      ∧ 16 < ({ verifyWith (.ok macT1 []) with host.tagLen := 17 } : State).host.tagLen.toNat
      ∧ ({ verifyWith (.ok macT1 []) with host.tagLen := 17 } : State).nextAnswer macCall = .ok macT1 []
      ∧ ({ verifyWith (.ok macT1 []) with host.tagLen := 17 } : State).paddingFits
      ∧ (32 : Word).toNat % 16 = 0 ∧ 16 ≤ (32 : Word).toNat ∧ (32 : Word).toNat ≤ idleState.cap) := by decide
theorem test_witness_OutsideDomainFaultOrBadState_regions :
    (0 < idleState.host.tagLen.toNat ∧ idleState.host.tagLen.toNat ≤ 16
      ∧ idleState.cap < ({ decT1 .tagPrepare with work.plen := 45 } : State).work.payloadOffset.toNat + 45 + 4)
    ∧ (({ decT1 .tagPrepare with host.tagLen := 0 } : State).host.tagLen = 0
      ∧ (decT1 .tagPrepare).work.payloadOffset.toNat + (decT1 .tagPrepare).work.plen.toNat + (decT1 .tagPrepare).host.tagLen.toNat ≤ idleState.cap
      ∧ 2 ^ 32 ≤ ({ decT1 .tagPrepare with work.ppad := 0xFFFFFFF0 } : State).work.payloadOffset.toNat + (0xFFFFFFF0 : Word).toNat)
    ∧ (0 < (49 : Word).toNat ∧ idleState.cap < ({ encT1 .emitResult with work.plen := 49 } : State).work.payloadOffset.toNat + 49)
    ∧ (({ encT1 .emitResult with work.payloadOffset := 0, work.plen := 61 } : State).work.payloadOffset.toNat + 61 ≤ idleState.cap
      ∧ idleState.cap < 61 + idleState.host.tagLen.toNat)
    ∧ ({ decT1 .tagVerify with work.ppad := 4 } : State).work.ppad.toNat < (decT1 .tagVerify).work.plen.toNat
    ∧ ((decT1 .tagVerify).work.plen.toNat < (49 : Word).toNat
      ∧ idleState.cap < (decT1 .tagVerify).work.payloadOffset.toNat + (49 : Word).toNat) := by decide
theorem test_witness_CheckedArithmeticNeverWraps :
    (0xFFFFFFFF : Word).toNat + (0 : Word).toNat < 2 ^ 32 ∧ 2 ^ 32 ≤ (0xFFFFFFFF : Word).toNat + (1 : Word).toNat
    ∧ (0xFFFFFFF0 : Word).toNat + 15 < 2 ^ 32 ∧ 2 ^ 32 ≤ (0xFFFFFFF1 : Word).toNat + 15 := by decide
theorem test_witness_B0FlagsLayout :
    (4 : Word).toNat ∈ [4, 6, 8, 10, 12, 14, 16] ∧ (16 : Word).toNat ∈ [4, 6, 8, 10, 12, 14, 16]
    ∧ 7 ≤ (7 : Word).toNat ∧ (13 : Word).toNat ≤ 13 ∧ 7 ≤ (13 : Word).toNat ∧ (7 : Word).toNat ≤ 13
    ∧ (65535 : Word).toNat < 2 ^ (8 * (15 - (13 : Word).toNat)) ∧ (0xFFFFFFFF : Word).toNat < 2 ^ (8 * (15 - (7 : Word).toNat)) := by decide
theorem test_witness_B0FlagsRejectsInOrder :
    (5 : Word).toNat ∉ [4, 6, 8, 10, 12, 14, 16] ∧ (18 : Word).toNat ∉ [4, 6, 8, 10, 12, 14, 16]
    ∧ (6 : Word).toNat < 7 ∧ 13 < (14 : Word).toNat
    ∧ ((4 : Word).toNat ∈ [4, 6, 8, 10, 12, 14, 16] ∧ 7 ≤ (13 : Word).toNat ∧ (13 : Word).toNat ≤ 13
      ∧ 2 ^ (8 * (15 - (13 : Word).toNat)) ≤ (65536 : Word).toNat) := by decide
theorem test_witness_B0Layout :
    (12 : Word).toNat ∈ [4, 6, 8, 10, 12, 14, 16] ∧ 7 ≤ (10 : Word).toNat ∧ (10 : Word).toNat ≤ 13
    ∧ (0xDEADBEEF : Word).toNat < 2 ^ (8 * (15 - (10 : Word).toNat)) := by decide
theorem test_witness_CounterBlockLayout :
    7 ≤ (7 : Word).toNat ∧ (7 : Word).toNat ≤ 13 ∧ 2 ^ 64 - 1 < 2 ^ (8 * (15 - (7 : Word).toNat))
    ∧ 7 ≤ (13 : Word).toNat ∧ (13 : Word).toNat ≤ 13 ∧ 65535 < 2 ^ (8 * (15 - (13 : Word).toNat))
    ∧ 0 < 2 ^ (8 * (15 - (13 : Word).toNat)) := by decide
theorem test_witness_AadPrefixForms :
    (0 : Long).toNat = 0 ∧ (0 < (1 : Long).toNat ∧ (65279 : Long).toNat < 65280)
    ∧ (65280 ≤ (65280 : Long).toNat ∧ (4294967295 : Long).toNat < 2 ^ 32) ∧ 2 ^ 32 ≤ (4294967296 : Long).toNat := by decide
theorem test_witness_LenFitsIsTheBound : (65535 : Word).toNat < 2 ^ (8 * 2) ∧ ¬ (65536 : Word).toNat < 2 ^ (8 * 2)
    ∧ lengthFits 4 0xFFFFFFFF = true := by decide
theorem test_witness_XorMaskIsAnInvolution : (bytes [0xB2, 0x92, 0xB6, 0xD6]).length = (4 : Word).toNat ∧ (4 : Word).toNat ≤ 16
    ∧ macT1.toList.length = (16 : Word).toNat ∧ (16 : Word).toNat ≤ 16 := by decide
theorem test_witness_VerifyIsEquality : (bytes [1, 2, 3, 4]).length = (4 : Word).toNat
    ∧ (bytes [1, 2, 3, 5]).length = (4 : Word).toNat ∧ bytes [1, 2, 3, 4] ≠ bytes [1, 2, 3, 5] := by decide
theorem test_witness_EcbCallWritesS0 : (callState (.ok s0T1 [])).nextAnswer ecbCall = .ok s0T1 [] := by decide
theorem test_witness_CtrCallWritesRegion :
    (16 : Word).toNat % 16 = 0 ∧ 0 < (16 : Word).toNat ∧ (48 : Word).toNat + (16 : Word).toNat ≤ (callState (.ok (ctrT1 2) (bytes regionT1))).cap
    ∧ (callState (.ok (ctrT1 2) (bytes regionT1))).nextAnswer ctrCall = .ok (ctrT1 2) (bytes regionT1)
    ∧ (bytes regionT1).length = (16 : Word).toNat := by decide
theorem test_witness_MacCallReturnsTag :
    (64 : Word).toNat % 16 = 0 ∧ 16 ≤ (16 : Word).toNat ∧ (64 : Word).toNat ≤ (callState (.ok macT1 [])).cap
    ∧ (callState (.ok macT1 [])).nextAnswer macCall = .ok macT1 [] ∧ (callState (.ok macT1 [])).host.tagLen.toNat ≤ 16 := by decide
theorem test_witness_EraseCallRecordsFailure :
    (callState (.ok Block.zero [])).nextAnswer eraseCall = .ok Block.zero [] ∧ (callState .fail).nextAnswer eraseCall = .fail := by decide
theorem test_witness_ValidateArgsAccepts :
    ((running .validateArgs 7 idleState).ctl.cmdLatch &&& 0xFFFFFFF8#32 = 0#32 ∧ idleState.host.tagLen.toNat ∈ [4, 6, 8, 10, 12, 14, 16]
      ∧ 7 ≤ idleState.host.nonceLen.toNat ∧ idleState.host.nonceLen.toNat ≤ 13
      ∧ (running .validateArgs 7 idleState).isEnc = true ∧ (65535 : Word).toNat < 2 ^ (8 * (15 - idleState.host.nonceLen.toNat)))
    ∧ ((running .validateArgs 1 idleState).ctl.cmdLatch &&& 0xFFFFFFF8#32 = 0#32 ∧ (running .validateArgs 1 idleState).isEnc = false
      ∧ idleState.host.tagLen.toNat ≤ (4 : Word).toNat
      ∧ (4 : Word).toNat - idleState.host.tagLen.toNat < 2 ^ (8 * (15 - idleState.host.nonceLen.toNat))) := by decide
theorem test_witness_ValidateArgsRejectsInOrder :
    (running .validateArgs 0x80000003 idleState).ctl.cmdLatch &&& 0xFFFFFFF8#32 ≠ 0#32
    ∧ ({ idleState with host.tagLen := 5 } : State).host.tagLen.toNat ∉ [4, 6, 8, 10, 12, 14, 16]
    ∧ ({ idleState with host.nonceLen := 6 } : State).host.nonceLen.toNat < 7 ∧ 13 < ({ idleState with host.nonceLen := 14 } : State).host.nonceLen.toNat
    ∧ ((running .validateArgs 1 idleState).isEnc = false ∧ (3 : Word).toNat < idleState.host.tagLen.toNat)
    ∧ (2 ^ (8 * (15 - idleState.host.nonceLen.toNat)) ≤ (65536 : Word).toNat
      ∧ 2 ^ (8 * (15 - idleState.host.nonceLen.toNat)) ≤ (65540 : Word).toNat - idleState.host.tagLen.toNat
      ∧ idleState.host.tagLen.toNat ≤ (65540 : Word).toNat) := by decide

theorem test_witness_ComposeBuildsEncryptFrame :
    composeEnc.isEnc = true ∧ composeEnc.host.tagLen.toNat ∈ [4, 6, 8, 10, 12, 14, 16] ∧ 7 ≤ composeEnc.host.nonceLen.toNat
    ∧ composeEnc.host.nonceLen.toNat ≤ 13 ∧ composeEnc.work.plen.toNat < 2 ^ (8 * (15 - composeEnc.host.nonceLen.toNat))
    ∧ (composeEnc.message composeEnc.work.plen.toNat).frame.length ≤ composeEnc.cap
    ∧ composeEnc.nextAnswer (.ecbEncryptBlock composeEnc.host.keyCtx ((composeEnc.message composeEnc.work.plen.toNat).ctr 0)) = .ok s0T1 [] := by decide
theorem test_witness_ComposeBuildsDecryptFrame :
    composeDec.isEnc = false ∧ composeDec.host.tagLen.toNat ∈ [4, 6, 8, 10, 12, 14, 16] ∧ 7 ≤ composeDec.host.nonceLen.toNat
    ∧ composeDec.host.nonceLen.toNat ≤ 13 ∧ composeDec.work.plen.toNat < 2 ^ (8 * (15 - composeDec.host.nonceLen.toNat))
    ∧ ((composeDec.message composeDec.work.plen.toNat).header
        ++ composeDec.host.inp.readBytes 0 composeDec.host.inputLen.toNat).length ≤ composeDec.cap
    ∧ (composeDec.message composeDec.work.plen.toNat).frame.length ≤ composeDec.cap
    ∧ composeDec.nextAnswer (.ecbEncryptBlock composeDec.host.keyCtx ((composeDec.message composeDec.work.plen.toNat).ctr 0)) = .ok s0T1 [] := by decide
-- L13 on encrypt, and a decrypt whose input alone is too long (L21's case, at CAP 64)
theorem test_witness_OversizeFrameIsTooBig :
    ({ composeEnc with host.aadLenLo := 47 } : State).cap < (({ composeEnc with host.aadLenLo := 47 } : State).message 5).frame.length
    ∧ (composeDec.isEnc = false ∧ composeDec.cap < (composeDec.message 5).header.length + (49 : Word).toNat
      ∧ (composeDec.message 5).frame.length ≤ composeDec.cap) := by decide
theorem test_witness_TagPrepareEncComputesRawTag :
    (callState (.ok macT1 [])).work.wbufLen.toNat % 16 = 0 ∧ 16 ≤ (callState (.ok macT1 [])).work.wbufLen.toNat
    ∧ (callState (.ok macT1 [])).work.wbufLen.toNat ≤ (callState (.ok macT1 [])).cap ∧ (callState (.ok macT1 [])).host.tagLen.toNat ≤ 16
    ∧ (callState (.ok macT1 [])).nextAnswer macCall = .ok macT1 [] := by decide
theorem test_witness_TagPrepareDecUnmasksTag : (decT1 .tagPrepare).host.tagLen.toNat ≤ 16
    ∧ (decT1 .tagPrepare).work.payloadOffset.toNat + (decT1 .tagPrepare).work.plen.toNat + (decT1 .tagPrepare).host.tagLen.toNat ≤ (decT1 .tagPrepare).cap
    ∧ (decT1 .tagPrepare).work.payloadOffset.toNat + (decT1 .tagPrepare).work.ppad.toNat < 2 ^ 32
    ∧ (({ decT1 .tagPrepare with host.tagLen := 0, work.ppad := 0xFFFFFFEF } : State).host.tagLen = 0
      ∧ (16 : Word).toNat + (0xFFFFFFEF : Word).toNat < 2 ^ 32) := by decide
theorem test_witness_CipherPayloadEnciphersRegion :
    (running .cipherPayload 3 idleState).work.ppad = 0
    ∧ ((encT1 .cipherPayload).work.ppad.toNat % 16 = 0 ∧ 0 < (encT1 .cipherPayload).work.ppad.toNat
      ∧ (encT1 .cipherPayload).work.payloadOffset.toNat + (encT1 .cipherPayload).work.ppad.toNat ≤ (encT1 .cipherPayload).cap
      ∧ (callState (.ok (ctrT1 2) (bytes regionT1))).nextAnswer ctrCall = .ok (ctrT1 2) (bytes regionT1)
      ∧ (bytes regionT1).length = (encT1 .cipherPayload).work.ppad.toNat) := by decide
theorem test_witness_TagFinalizeMasksTag : (encT1 .tagFinalize).host.tagLen.toNat ≤ 16
    ∧ ({ encT1 .tagFinalize with host.tagLen := 16 } : State).host.tagLen.toNat ≤ 16 := by decide
theorem test_witness_TagVerifyComparesTags :
    (verifyT1 macT1).paddingFits ∧ (verifyT1 macT1).work.wbufLen.toNat % 16 = 0 ∧ 16 ≤ (verifyT1 macT1).work.wbufLen.toNat
    ∧ (verifyT1 macT1).work.wbufLen.toNat ≤ (verifyT1 macT1).cap ∧ (verifyT1 macT1).host.tagLen.toNat ≤ 16
    ∧ ((verifyWith (.ok macT1 [])).zeroWbuf 21 11).nextAnswer macCall = .ok macT1 []
    ∧ (verifyT1 macT1).work.candTag.toList.take 4 = macT1.toList.take 4
    ∧ (verifyT1 Block.zero).work.candTag.toList.take 4 ≠ macT1.toList.take 4
    ∧ ({ verifyT1 macT1 with work.plen := 49, work.ppad := 49 } : State).paddingFits := by decide
theorem test_witness_EmitResultEncWritesOutput : (encT1 .emitResult).host.tagLen.toNat ≤ 16
    ∧ (encT1 .emitResult).work.payloadOffset.toNat + (encT1 .emitResult).work.plen.toNat ≤ (encT1 .emitResult).cap
    ∧ (encT1 .emitResult).work.plen.toNat + (encT1 .emitResult).host.tagLen.toNat ≤ (encT1 .emitResult).cap
    ∧ (({ encT1 .emitResult with work.plen := 0, host.tagLen := 16 } : State).work.plen = 0
      ∧ (0 : Word).toNat + (16 : Word).toNat ≤ (encT1 .emitResult).cap) := by decide
theorem test_witness_EmitResultDecWritesPlaintext :
    (decT1 .emitResult).work.payloadOffset.toNat + (decT1 .emitResult).work.plen.toNat ≤ (decT1 .emitResult).cap
    ∧ ({ decT1 .emitResult with work.plen := 0, work.payloadOffset := 65 } : State).work.plen = 0 := by decide
theorem test_witness_CleanupEndsCommand :
    (running .cleanup 3 idleState).work.keyUsed = false ∧ (running .cleanup 7 (encT1 .cleanup)).keepKey = true
    ∧ ((callState .fail).nextAnswer eraseCall ≠ .noReturn ∧ (callState .fail).work.keyUsed = true ∧ (callState .fail).keepKey = false)
    ∧ (callState (.ok Block.zero [])).nextAnswer eraseCall ≠ .noReturn := by decide

/-- The invariant holds of T1 in the middle of a command. -/
theorem test_inv_encT1 : (encT1 .emitResult).Inv := by constructor <;> decide
theorem test_witness_StepKeepsInvariant : (encT1 .emitResult).Inv ∧ passes (step (encT1 .emitResult)) (fun t => t.ctl.phase == .cleanup) = true :=
  ⟨test_inv_encT1, by decide⟩
theorem test_witness_OnlyHostChangesHostState :
    passes (step (pending [.hwr 7 23] idleState)) (fun t => t.host != idleState.host) = true
    ∧ passes (step (pending [.hwrb 1 63 9] idleState)) (fun t => t.host != idleState.host) = true
    ∧ passes (step (pending [.reset] (encT1 .cleanup))) (fun t => t.host != idleState.host) = true := by decide
theorem test_witness_OutputOnlyAfterVerification : (encT1 .emitResult).Inv
    ∧ passes (step (encT1 .emitResult)) (fun t => t.result.out.get 0 != (encT1 .emitResult).result.out.get 0 && t.result.out.get 0 != 0) = true :=
  ⟨test_inv_encT1, by decide⟩
theorem test_witness_PhaseStepMakesProgress : (encT1 .emitResult).Inv ∧ (encT1 .emitResult).nextEvent = .tick ∧ (encT1 .emitResult).hung = false
    ∧ passes (step (encT1 .emitResult)) (fun _ => true) = true := ⟨test_inv_encT1, by decide, by decide, by decide⟩
/-- T1 in CLEANUP with other working registers, another latch and another output. -/
def otherT1 : State :=
  { running .tagVerify 1 (encT1 .cleanup) with work := (verifyT1 macT1).work, result.out := cells 0 [7], result.outLen := 9 }

theorem test_witness_HostReadsHideWorkingState :
    otherT1 = { encT1 .cleanup with work := otherT1.work, ctl := otherT1.ctl
                                    result := { (encT1 .cleanup).result with out := otherT1.result.out, outLen := otherT1.result.outLen } }
    ∧ (encT1 .cleanup).result.busy = true ∧ otherT1.work ≠ (encT1 .cleanup).work
    ∧ (pending [.poll] (encT1 .cleanup)).nextEvent = .poll ∧ (pending [.ccmReturn] (encT1 .cleanup)).nextEvent = .ccmReturn
    ∧ (pending [.hrd 8] (encT1 .cleanup)).nextEvent = .hrd 8 ∧ (pending [.hrdb 3 0] (encT1 .cleanup)).nextEvent = .hrdb 3 0
    ∧ passes (step (pending [.hrdb 3 0] (encT1 .cleanup))) (fun _ => true) = true := by decide

/-- T1's message. -/
def messageT1 : Message := idleState.message 5

/-- The calls of T1, the key erased. -/
def callsEncT1 : List Call :=
  [.ecbEncryptBlock 0 (messageT1.ctr 0), .cbcMac 0 messageT1.frame (BitVec.ofNat 32 messageT1.frame.length)]
  ++ [.ctrEncrypt 0 (messageT1.ctr 1) (padTo16 messageT1.payload) (BitVec.ofNat 32 (padTo16 messageT1.payload).length)]
  ++ [.keyslotErase 0]
/-- The calls of T1d, the key erased. -/
def callsDecT1 : List Call :=
  [.ecbEncryptBlock 0 (messageT1.ctr 0)]
  ++ [.ctrEncrypt 0 (messageT1.ctr 1) (padTo16 (messageT1.ciphertext toyE)) (BitVec.ofNat 32 (padTo16 messageT1.payload).length)]
  ++ [.cbcMac 0 messageT1.frame (BitVec.ofNat 32 messageT1.frame.length)]
  ++ [.keyslotErase 0]

/-- T1 about to start, with the reference answers. -/
def startEncT1 : State :=
  answered (callsEncT1.map (referenceAnswer toyE)) (pending [.hwr 0 (cmdWord 0 false true true)] idleState)

/-- T1d about to start, with the reference answers. -/
def startDecT1 : State :=
  answered (callsDecT1.map (referenceAnswer toyE)) (pending [.hwr 0 (cmdWord 0 false false true)]
    { idleState with host.inputLen := 9, host.inp := cells 0 [0xA1, 0xB2, 0x83, 0x94, 0xE5, 0x12, 0x22, 0x36, 0x46] })

theorem test_witness_EncryptCommandEmitsWireFormat :
    startEncT1.Inv ∧ startEncT1.ctl.phase = .idle ∧ startEncT1.env.events = [.hwr 0 (cmdWord 0 false true true)]
    ∧ startEncT1.host.tagLen.toNat ∈ [4, 6, 8, 10, 12, 14, 16] ∧ 7 ≤ startEncT1.host.nonceLen.toNat ∧ startEncT1.host.nonceLen.toNat ≤ 13
    ∧ startEncT1.host.inputLen.toNat < 2 ^ (8 * (15 - startEncT1.host.nonceLen.toNat))
    ∧ messageT1 = startEncT1.message startEncT1.host.inputLen.toNat ∧ messageT1.frame.length ≤ startEncT1.cap
    ∧ messageT1.payload ≠ [] ∧ startEncT1.env.answers = callsEncT1.map (referenceAnswer toyE)
    ∧ messageT1.wire toyE = bytes [0xA1, 0xB2, 0x83, 0x94, 0xE5, 0x12, 0x22, 0x36, 0x46] :=
  ⟨by constructor <;> decide, by decide, by decide, by decide, by decide, by decide, by decide, by decide, by decide, by decide, rfl, by decide⟩
theorem test_witness_DecryptCommandReturnsPlaintext :
    startDecT1.Inv ∧ startDecT1.ctl.phase = .idle ∧ startDecT1.env.events = [.hwr 0 (cmdWord 0 false false true)]
    ∧ startDecT1.host.tagLen.toNat ∈ [4, 6, 8, 10, 12, 14, 16] ∧ 7 ≤ startDecT1.host.nonceLen.toNat ∧ startDecT1.host.nonceLen.toNat ≤ 13
    ∧ messageT1.payload.length < 2 ^ (8 * (15 - startDecT1.host.nonceLen.toNat))
    ∧ messageT1 = { startDecT1.message 0 with payload := messageT1.payload }
    ∧ startDecT1.host.inputLen.toNat = messageT1.payload.length + startDecT1.host.tagLen.toNat
    ∧ messageT1.header.length + startDecT1.host.inputLen.toNat ≤ startDecT1.cap
    ∧ startDecT1.host.inp.readBytes 0 startDecT1.host.inputLen.toNat = messageT1.wire toyE
    ∧ messageT1.payload ≠ [] ∧ startDecT1.env.answers = callsDecT1.map (referenceAnswer toyE) :=
  ⟨by constructor <;> decide, by decide, by decide, by decide, by decide, by decide, by decide, by decide, by decide, by decide,
    by decide, by decide, rfl⟩

/-! An empty payload (L1, and its decrypt): no ctr_encrypt call. -/

/-- The message with no payload. -/
def messageEmpty : Message := idleState.message 0

/-- Its calls on either path, the key kept. -/
def callsEmpty : List Call :=
  [.ecbEncryptBlock 0 (messageEmpty.ctr 0), .cbcMac 0 messageEmpty.frame (BitVec.ofNat 32 messageEmpty.frame.length)]

/-- The encrypt of it about to start, with the reference answers. -/
def startEncEmpty : State :=
  answered (callsEmpty.map (referenceAnswer toyE))
    (pending [.hwr 0 (cmdWord 0 true true true)] { idleState with host.inputLen := 0 })
/-- The decrypt of its tag about to start, with the reference answers. -/
def startDecEmpty : State :=
  answered (callsEmpty.map (referenceAnswer toyE)) (pending [.hwr 0 (cmdWord 0 true false true)]
    { idleState with host.inputLen := 4, host.inp := Memory.writeBytes [] 0 (messageEmpty.wire toyE) })

theorem test_witness_EncryptCommandEmitsWireFormat_empty :
    startEncEmpty.Inv ∧ startEncEmpty.ctl.phase = .idle ∧ startEncEmpty.env.events = [.hwr 0 (cmdWord 0 true true true)]
    ∧ startEncEmpty.host.tagLen.toNat ∈ [4, 6, 8, 10, 12, 14, 16] ∧ 7 ≤ startEncEmpty.host.nonceLen.toNat
    ∧ startEncEmpty.host.nonceLen.toNat ≤ 13 ∧ startEncEmpty.host.inputLen.toNat < 2 ^ (8 * (15 - startEncEmpty.host.nonceLen.toNat))
    ∧ messageEmpty = startEncEmpty.message startEncEmpty.host.inputLen.toNat ∧ messageEmpty.frame.length ≤ startEncEmpty.cap
    ∧ messageEmpty.payload = [] ∧ startEncEmpty.env.answers = callsEmpty.map (referenceAnswer toyE) :=
  ⟨by constructor <;> decide, by decide, by decide, by decide, by decide, by decide, by decide, by decide, by decide, by decide, rfl⟩
theorem test_witness_DecryptCommandReturnsPlaintext_empty :
    startDecEmpty.Inv ∧ startDecEmpty.ctl.phase = .idle ∧ startDecEmpty.env.events = [.hwr 0 (cmdWord 0 true false true)]
    ∧ startDecEmpty.host.tagLen.toNat ∈ [4, 6, 8, 10, 12, 14, 16] ∧ 7 ≤ startDecEmpty.host.nonceLen.toNat
    ∧ startDecEmpty.host.nonceLen.toNat ≤ 13 ∧ messageEmpty.payload.length < 2 ^ (8 * (15 - startDecEmpty.host.nonceLen.toNat))
    ∧ messageEmpty = { startDecEmpty.message 0 with payload := messageEmpty.payload }
    ∧ startDecEmpty.host.inputLen.toNat = messageEmpty.payload.length + startDecEmpty.host.tagLen.toNat
    ∧ messageEmpty.header.length + startDecEmpty.host.inputLen.toNat ≤ startDecEmpty.cap
    ∧ startDecEmpty.host.inp.readBytes 0 startDecEmpty.host.inputLen.toNat = messageEmpty.wire toyE
    ∧ messageEmpty.payload = [] ∧ startDecEmpty.env.answers = callsEmpty.map (referenceAnswer toyE) :=
  ⟨by constructor <;> decide, by decide, by decide, by decide, by decide, by decide, by decide, by decide, by decide, by decide,
    by decide, by decide, rfl⟩

end Sys2Proof.Tests
end

