-- ==== Sys2Proof/Proofs/EncoderBlocks.lean ====
section
/-! The blocks of the Framing Encoder (R106, R109): B0 and the counter blocks have one form, flags byte, nonce,
big-endian tail; its three fields are read here once, and each function is tied to it. -/

namespace Sys2Proof.Machine

/-! ### The form that B0 and the counter blocks share -/

/-- The form of R106 and R109: the flags byte, the first n bytes of the nonce, v big-endian in the 15 - n bytes left. -/
def formattedBlock (flags : Byte) (nonce : NonceBytes) (n v : Nat) : Block :=
  fit 16 (flags :: nonce.toList.take n ++ be v (15 - n))

theorem length_flags_nonce (flags : Byte) (nonce : NonceBytes) {n : Nat} (hn : n ≤ 13) :
    (flags :: nonce.toList.take n).length = 1 + n := by
  rw [List.length_cons, List.length_take, Vector.length_toList, Nat.min_eq_left hn, Nat.add_comm]

/-- For a nonce of at most 13 bytes the fields fill the block: nothing is cut off and nothing padded. -/
theorem toList_formattedBlock (flags : Byte) (nonce : NonceBytes) {n : Nat} (v : Nat) (hn : n ≤ 13) :
    (formattedBlock flags nonce n v).toList = flags :: nonce.toList.take n ++ be v (15 - n) := by
  rw [formattedBlock, toList_fit, fitBytes_of_length]
  rw [List.length_append, length_flags_nonce flags nonce hn, length_be]
  omega

theorem formattedBlock_flags (flags : Byte) (nonce : NonceBytes) (n v : Nat) :
    (formattedBlock flags nonce n v)[0] = flags := rfl

theorem formattedBlock_nonce (flags : Byte) (nonce : NonceBytes) {n : Nat} (v : Nat) (hn : n ≤ 13) {i : Nat} (hi : i < n) :
    (formattedBlock flags nonce n v).toList.getD (1 + i) 0 = nonce.toList.getD i 0 := by
  rw [toList_formattedBlock flags nonce v hn, getD_append', length_flags_nonce flags nonce hn,
    if_pos (by omega), Nat.add_comm, List.getD_cons_succ]
  simp [List.getD_eq_getElem?_getD, hi]

theorem formattedBlock_tail (flags : Byte) (nonce : NonceBytes) {n v : Nat} (hn : n ≤ 13) (hv : v < 256 ^ (15 - n)) :
    beValue ((formattedBlock flags nonce n v).toList.drop (1 + n)) = v := by
  rw [toList_formattedBlock flags nonce v hn, List.drop_left' (length_flags_nonce flags nonce hn),
    beValue_be, Nat.mod_eq_of_lt hv]

/-! ### The domain of the functions (R140, R142, R145) -/

theorem legalTagLen_iff (t : Word) : legalTagLen t = true ↔ t.toNat ∈ [4, 6, 8, 10, 12, 14, 16] := List.contains_iff_mem

theorem legalNonceLen_iff (n : Word) : legalNonceLen n = true ↔ 7 ≤ n.toNat ∧ n.toNat ≤ 13 := by
  simp [legalNonceLen]

/-- The bound of q bytes counted in bits, as the statements write it. -/
theorem two_pow_eight_mul (q : Nat) : 2 ^ (8 * q) = 256 ^ q := Nat.pow_mul 2 8 q

theorem lengthFits_iff (q : Nat) (payloadLen : Word) : lengthFits q payloadLen = true ↔ payloadLen.toNat < 2 ^ (8 * q) := by
  rw [two_pow_eight_mul]
  exact decide_eq_true_iff

/-! ### What each function returns on its domain -/

/-- The B0 flags byte (R107) as a number. -/
abbrev b0FlagsValue (nonceLen tagLen : Word) (aadPresent : Bool) : Nat :=
  64 * aadPresent.toNat + 8 * ((tagLen.toNat - 2) / 2) + (14 - nonceLen.toNat)

/-- The fields of the B0 flags byte do not overflow it. -/
theorem b0FlagsValue_lt {nonceLen tagLen : Word} (aadPresent : Bool) (ht : legalTagLen tagLen = true)
    (hn : legalNonceLen nonceLen = true) : b0FlagsValue nonceLen tagLen aadPresent < 256 := by
  have hle : ∀ t ∈ [4, 6, 8, 10, 12, 14, 16], t ≤ 16 := by decide
  have := hle _ ((legalTagLen_iff tagLen).mp ht)
  have := ((legalNonceLen_iff nonceLen).mp hn).1
  have := aadPresent.toNat_le
  unfold b0FlagsValue
  omega

theorem encodeB0Flags_eq {nonceLen tagLen payloadLen : Word} (aadPresent : Bool) (h : frameable nonceLen tagLen payloadLen) :
    encodeB0Flags nonceLen tagLen aadPresent payloadLen = .ok (BitVec.ofNat 8 (b0FlagsValue nonceLen tagLen aadPresent)) := by
  obtain ⟨ht, hn, hp⟩ := h
  simp [encodeB0Flags, ht, hn, hp]

theorem encodeB0_eq {nonceLen tagLen payloadLen : Word} (nonce : NonceBytes) (aadLen : Long)
    (h : frameable nonceLen tagLen payloadLen) :
    encodeB0 nonce nonceLen tagLen aadLen payloadLen = .ok (formattedBlock
      (BitVec.ofNat 8 (b0FlagsValue nonceLen tagLen (aadLen != 0))) nonce nonceLen.toNat payloadLen.toNat) := by
  rw [encodeB0, encodeB0Flags_eq _ h]
  rfl

theorem encodeCtr0Flags_eq {nonceLen : Word} (h : legalNonceLen nonceLen = true) :
    encodeCtr0Flags nonceLen = some (BitVec.ofNat 8 (14 - nonceLen.toNat)) := if_pos h

theorem encodeCtrM_eq {nonceLen : Word} {m : Nat} (nonce : NonceBytes) (h : legalNonceLen nonceLen = true)
    (hm : m < 256 ^ (15 - nonceLen.toNat)) :
    encodeCtrM nonce nonceLen m
      = some (formattedBlock (BitVec.ofNat 8 (14 - nonceLen.toNat)) nonce nonceLen.toNat m) := by
  rw [encodeCtrM, encodeCtr0Flags_eq h]
  exact if_pos hm

/-! ### Each function run on its own returns its value and changes nothing else -/

theorem exec_encB0_of_ok {nonce : NonceBytes} {nonceLen tagLen payloadLen : Word} {aadLen : Long} {b : Block} (s : State)
    (h : encodeB0 nonce nonceLen tagLen aadLen payloadLen = .ok b) :
    exec (.encB0 nonce nonceLen tagLen aadLen payloadLen) s = .next (s.respond (.bytes b.toList)) := by
  show execEncB0 nonce nonceLen tagLen aadLen payloadLen s = _
  rw [execEncB0, h]
  rfl

theorem exec_encCtr0Flags_of_some {nonceLen : Word} {f : Byte} (s : State) (h : encodeCtr0Flags nonceLen = some f) :
    exec (.encCtr0Flags nonceLen) s = .next (s.respond (.byte f)) := by
  show execEncCtr0Flags nonceLen s = _
  rw [execEncCtr0Flags, h]
  rfl

theorem exec_encCtr0_of_some {nonce : NonceBytes} {nonceLen : Word} {b : Block} (s : State)
    (h : encodeCtr0 nonce nonceLen = some b) :
    exec (.encCtr0 nonce nonceLen) s = .next (s.respond (.bytes b.toList)) := by
  show execEncCtr0 nonce nonceLen s = _
  rw [execEncCtr0, h]
  rfl

theorem exec_ctrM_of_some {nonce : NonceBytes} {nonceLen : Word} {m : Nat} {b : Block} (s : State)
    (h : encodeCtrM nonce nonceLen m = some b) :
    exec (.ctrM nonce nonceLen m) s = .next (s.respond (.bytes b.toList)) := by
  show execCtrM nonce nonceLen m s = _
  rw [execCtrM, h]
  rfl

/-! ### The layouts -/

/-- AAD is present exactly when its 64-bit length is positive (R141). -/
theorem toNat_aadPresent (aadLen : Long) : (aadLen != 0).toNat = if 0 < aadLen.toNat then 1 else 0 := by
  by_cases h : aadLen = 0
  · subst h; rfl
  · have : 0 < aadLen.toNat := Nat.pos_of_ne_zero fun h0 => h (BitVec.eq_of_toNat_eq h0)
    rw [bne_iff_ne.mpr h, if_pos this]
    rfl

/-- Settles O28: on the legal parameters B0 is the formatted block of its flags byte, the nonce and the payload length. -/
theorem b0Layout : Obligations.B0Layout := by
  intro nonce nonceLen tagLen payloadLen aadLen s ht hn7 hn13 hp
  have hlegalT := (legalTagLen_iff tagLen).mpr ht
  have hlegalN := (legalNonceLen_iff nonceLen).mpr ⟨hn7, hn13⟩
  have hB0 := encodeB0_eq nonce aadLen ⟨hlegalT, hlegalN, (lengthFits_iff _ payloadLen).mpr hp⟩
  refine ⟨_, exec_encB0_of_ok s hB0, ?flags, fun i hi => formattedBlock_nonce _ nonce _ hn13 hi,
    formattedBlock_tail _ nonce hn13 (two_pow_eight_mul _ ▸ hp)⟩
  case flags =>
    rw [formattedBlock_flags, BitVec.toNat_ofNat, Nat.mod_eq_of_lt (b0FlagsValue_lt _ hlegalT hlegalN), b0FlagsValue,
      toNat_aadPresent]

/-- Settles O29: CTR_M is the formatted block of q - 1, the nonce and the counter, and ENC_CTR0 is CTR_M at 0. -/
theorem counterBlockLayout : Obligations.CounterBlockLayout := by
  intro nonce nonceLen m s hn7 hn13 hm
  have hlegal := (legalNonceLen_iff nonceLen).mpr ⟨hn7, hn13⟩
  have hm256 : m < 256 ^ (15 - nonceLen.toNat) := two_pow_eight_mul _ ▸ hm
  have hflags : (BitVec.ofNat 8 (14 - nonceLen.toNat)).toNat = 14 - nonceLen.toNat := by
    rw [BitVec.toNat_ofNat]
    omega
  have hCtrM := encodeCtrM_eq nonce hlegal hm256
  refine ⟨⟨_, hflags, exec_encCtr0Flags_of_some s (encodeCtr0Flags_eq hlegal)⟩,
    _, exec_ctrM_of_some s hCtrM, ?flags, fun i hi => formattedBlock_nonce _ nonce _ hn13 hi,
    formattedBlock_tail _ nonce hn13 hm256, ?ctr0⟩
  case flags => rw [formattedBlock_flags, hflags]
  case ctr0 =>
    rintro rfl
    have hCtr0 := encodeCtr0_eq nonce hlegal
    rw [hCtrM] at hCtr0
    exact exec_encCtr0_of_some s hCtr0

end Sys2Proof.Machine
end

section
/-! The two functions of the Framing Encoder that bear on lengths: the four forms of the AAD length prefix (R111, R144),
one equation per range of the length, and the payload bound of LEN_FITS (R112, R145). -/

namespace Sys2Proof.Machine

/-! ### The AAD length prefix, one equation per range -/

theorem encodeAadLen_of_zero {n : Long} (h : n.toNat = 0) : encodeAadLen n = ([], 0) :=
  if_pos (BitVec.eq_of_toNat_eq h)

/-- Past the first test of R144: a positive length takes one of the three non-empty forms. -/
theorem encodeAadLen_of_pos {n : Long} (h : 0 < n.toNat) :
    encodeAadLen n = if n.toNat < 65280 then (be n.toNat 2, 2)
      else if n.toNat < 2 ^ 32 then ([0xFF, 0xFE] ++ be n.toNat 4, 6)
      else ([0xFF, 0xFF] ++ be n.toNat 8, 10) := by
  have hne : n ≠ 0 := by
    rintro rfl
    exact absurd h (by decide)
  exact if_neg hne

theorem encodeAadLen_short {n : Long} (h : 0 < n.toNat) (hlt : n.toNat < 65280) :
    encodeAadLen n = (be n.toNat 2, 2) := by
  rw [encodeAadLen_of_pos h, if_pos hlt]

theorem encodeAadLen_medium {n : Long} (h : 65280 ≤ n.toNat) (hlt : n.toNat < 2 ^ 32) :
    encodeAadLen n = ([0xFF, 0xFE] ++ be n.toNat 4, 6) := by
  rw [encodeAadLen_of_pos (by omega), if_neg (by omega), if_pos hlt]

theorem encodeAadLen_long {n : Long} (h : 2 ^ 32 ≤ n.toNat) :
    encodeAadLen n = ([0xFF, 0xFF] ++ be n.toNat 8, 10) := by
  rw [encodeAadLen_of_pos (by omega), if_neg (by omega), if_neg (by omega)]

/-- The big-endian bytes of a value that fits them read back as the value. -/
theorem beValue_be_of_lt {v k : Nat} (h : v < 256 ^ k) : beValue (be v k) = v := by
  rw [beValue_be, Nat.mod_eq_of_lt h]

/-! ### The two functions run on their own -/

theorem exec_encAadLen (n : Long) (s : State) :
    exec (.encAadLen n) s = .next (s.respond (.aadPrefix (encodeAadLen n).1 (encodeAadLen n).2)) := rfl

theorem exec_lenFits (q : Nat) (payloadLen : Word) (s : State) :
    exec (.lenFits q payloadLen) s = .next (s.respond (.bit (lengthFits q payloadLen))) := rfl

/-- Settles O30: the range of the length picks the form, and its big-endian field is wide enough for that range. -/
theorem aadPrefixForms : Obligations.AadPrefixForms := by
  intro n s
  refine ⟨_, _, exec_encAadLen n s, encodeAadLen_length n, ?zero, ?short, ?medium, ?long⟩
  case zero =>
    intro h
    rw [encodeAadLen_of_zero h]
  case short =>
    intro h hlt
    rw [encodeAadLen_short h hlt]
    exact ⟨rfl, beValue_be_of_lt (by omega)⟩
  case medium =>
    intro h hlt
    rw [encodeAadLen_medium h hlt]
    exact ⟨rfl, rfl, beValue_be_of_lt (by omega)⟩
  case long =>
    intro h
    rw [encodeAadLen_long h]
    exact ⟨rfl, rfl, beValue_be_of_lt (by omega)⟩

/-! ### The payload bound -/

/-- Four bytes hold every 32-bit length (R145). -/
theorem lengthFits_of_four_le {q : Nat} (payloadLen : Word) (hq : 4 ≤ q) : lengthFits q payloadLen = true := by
  rw [lengthFits_iff]
  calc payloadLen.toNat < 2 ^ 32 := payloadLen.isLt
    _ ≤ 2 ^ (8 * q) := Nat.pow_le_pow_right (by decide) (by omega)

/-- Settles O31: the bound is the definition's own, read in bits, and grows past the word's width at q = 4. -/
theorem lenFitsIsTheBound : Obligations.LenFitsIsTheBound := by
  intro q payloadLen s
  exact ⟨_, exec_lenFits q payloadLen s, lengthFits_iff q payloadLen, lengthFits_of_four_le payloadLen⟩

end Sys2Proof.Machine
end

section
/-! The masking of the Tag Engine (R182): its length, its bytes, and that it undoes itself. -/

namespace Sys2Proof.Machine

@[simp] theorem length_xorMask (tag : List Byte) (s0 : Block) (n : Nat) : (xorMask tag s0 n).length = n := by
  simp [xorMask]

theorem getD_xorMask (tag : List Byte) (s0 : Block) {n i : Nat} (hi : i < n) :
    (xorMask tag s0 n).getD i 0 = tag.getD i 0 ^^^ s0.toList.getD i 0 := by
  simp [xorMask, List.getD_eq_getElem?_getD, hi]

/-- Each byte meets the same byte of S0 twice, which cancels; a tag of another length would be cut or zero-padded. -/
theorem xorMask_xorMask {tag : List Byte} (s0 : Block) {n : Nat} (h : tag.length = n) :
    xorMask (xorMask tag s0 n) s0 n = tag := by
  refine List.ext_getElem (by rw [length_xorMask, h]) fun i hi htag => ?_
  have hin : i < n := h ▸ htag
  calc (xorMask (xorMask tag s0 n) s0 n)[i]
      = (xorMask (xorMask tag s0 n) s0 n).getD i 0 := (List.getD_eq_getElem _ _ hi).symm
    _ = (tag.getD i 0 ^^^ s0.toList.getD i 0) ^^^ s0.toList.getD i 0 := by
      rw [getD_xorMask _ _ hin, getD_xorMask _ _ hin]
    _ = tag.getD i 0 := by rw [BitVec.xor_assoc, BitVec.xor_self, BitVec.xor_zero]
    _ = tag[i] := List.getD_eq_getElem _ _ htag

/-- On its domain XOR_MASK run on its own returns the masked tag and changes nothing else. -/
theorem exec_xorMask {tag : List Byte} {tagLen : Word} (s0 : Block) (s : State) (h : tag.length = tagLen.toNat)
    (h16 : tagLen.toNat ≤ 16) :
    exec (.xorMask tag s0 tagLen) s = .next (s.respond (.bytes (xorMask tag s0 tagLen.toNat))) := by
  show execXorMask tag s0 tagLen s = _
  rw [execXorMask, if_pos ⟨h, h16⟩]
  rfl

/-- Settles O32: the masked tag is again in the domain of XOR_MASK, and masking it once more cancels S0. -/
theorem xorMaskIsAnInvolution : Obligations.XorMaskIsAnInvolution := by
  intro tag s0 tagLen s htag h16
  have hlen : (xorMask tag s0 tagLen.toNat).length = tagLen.toNat := length_xorMask tag s0 tagLen.toNat
  have hagain := exec_xorMask s0 s hlen h16
  rw [xorMask_xorMask s0 htag] at hagain
  exact ⟨_, hlen, exec_xorMask s0 s htag h16, fun i hi => getD_xorMask tag s0 hi, hagain⟩

end Sys2Proof.Machine
end

section
/-! The encrypt arm's last two phase steps: TAG_FINALIZE masks RAW_TAG into MTAG (R207), EMIT_RESULT writes ciphertext
and masked tag to OUT (R209). -/

namespace Sys2Proof.Machine

theorem getD_take (l : List Byte) (n i : Nat) : (l.take n).getD i 0 = if i < n then l.getD i 0 else 0 := by
  simp only [List.getD_eq_getElem?_getD, List.getElem?_take]
  split <;> rfl

/-! ### TAG_FINALIZE -/

/-- What TAG_FINALIZE puts into MTAG: the first TAG_LEN bytes of RAW_TAG masked with S0. -/
def State.maskedTag (s : State) : List Byte :=
  xorMask (s.work.rawTag.toList.take s.host.tagLen.toNat) s.work.s0 s.host.tagLen.toNat

theorem getD_maskedTag (s : State) {i : Nat} (hi : i < s.host.tagLen.toNat) :
    s.maskedTag.getD i 0 = s.work.rawTag.toList.getD i 0 ^^^ s.work.s0.toList.getD i 0 := by
  rw [State.maskedTag, getD_xorMask _ _ hi, getD_take, if_pos hi]

theorem exec_tagFinalize {s : State} (htag : s.host.tagLen.toNat ≤ 16) :
    exec .tagFinalize s
      = .next (State.goto .emitResult { s with work := { s.work with mtag := fit 16 s.maskedTag } }) := by
  show execTagFinalize s = _
  rw [execTagFinalize, Run.tagFits_of_le s htag]
  rfl

/-- Settles O47: MTAG is the masked tag brought to 16 bytes, so its bytes from TAG_LEN on are the zeros of the fit. -/
theorem tagFinalizeMasksTag : Obligations.TagFinalizeMasksTag := by
  intro s htag
  refine ⟨_, exec_tagFinalize htag, rfl, fun i hi => ?_⟩
  show (fit 16 s.maskedTag).toList.getD i 0 = _
  rw [toList_fit, getD_fitBytes, if_pos hi]
  by_cases htl : i < s.host.tagLen.toNat
  · rw [getD_maskedTag s htl, if_pos htl]
  · have hend : s.maskedTag.length ≤ i := by
      rw [State.maskedTag, length_xorMask]
      omega
    rw [getD_of_length_le hend, if_neg htl]

/-! ### EMIT_RESULT, encrypt arm -/

/-- What EMIT_RESULT writes on encrypt: the payload region, now ciphertext, and the first TAG_LEN bytes of MTAG. -/
def State.wireBytes (s : State) : List Byte := s.payloadBytes ++ s.work.mtag.toList.take s.host.tagLen.toNat

@[simp] theorem length_payloadBytes (s : State) : s.payloadBytes.length = s.work.plen.toNat :=
  Memory.length_readBytes _ _ _

theorem length_wireBytes {s : State} (htag : s.host.tagLen.toNat ≤ 16) :
    s.wireBytes.length = s.work.plen.toNat + s.host.tagLen.toNat := by
  rw [State.wireBytes, List.length_append, length_payloadBytes, List.length_take, Vector.length_toList,
    Nat.min_eq_left htag]

theorem getD_wireBytes_ciphertext (s : State) {a : Nat} (ha : a < s.work.plen.toNat) :
    s.wireBytes.getD a 0 = s.work.wbuf.get (s.work.payloadOffset.toNat + a) := by
  rw [State.wireBytes, getD_append', length_payloadBytes, if_pos ha, State.payloadBytes, Memory.getD_readBytes, if_pos ha]

theorem getD_wireBytes_tag (s : State) {a : Nat} (hlo : s.work.plen.toNat ≤ a)
    (hhi : a < s.work.plen.toNat + s.host.tagLen.toNat) :
    s.wireBytes.getD a 0 = s.work.mtag.toList.getD (a - s.work.plen.toNat) 0 := by
  rw [State.wireBytes, getD_append', length_payloadBytes, if_neg (by omega), getD_take, if_pos (by omega)]

/-- OUT after the emission, byte by byte: ciphertext, masked tag, and above them what stood there. -/
theorem get_writeBytes_wireBytes {s : State} (htag : s.host.tagLen.toNat ≤ 16) (m : Memory) (a : Nat) :
    (m.writeBytes 0 s.wireBytes).get a =
      if a < s.work.plen.toNat then s.work.wbuf.get (s.work.payloadOffset.toNat + a)
      else if a < s.work.plen.toNat + s.host.tagLen.toNat then s.work.mtag.toList.getD (a - s.work.plen.toNat) 0
      else m.get a := by
  rw [Memory.get_writeBytes, length_wireBytes htag, Nat.sub_zero]
  by_cases hc : a < s.work.plen.toNat
  · rw [if_pos (by omega), if_pos hc, getD_wireBytes_ciphertext s hc]
  · rw [if_neg hc]
    by_cases ht : a < s.work.plen.toNat + s.host.tagLen.toNat
    · rw [if_pos (by omega), if_pos ht, getD_wireBytes_tag s (by omega) ht]
    · rw [if_neg (by omega), if_neg ht]

/-- The payload region lies in WBUF, or is empty and makes no access (R11). -/
theorem inSpace_payload {α : Type} {s : State} {r : Run α}
    (h : s.work.plen = 0 ∨ s.work.payloadOffset.toNat + s.work.plen.toNat ≤ s.cap) :
    Run.inSpace s .wbuf s.work.payloadOffset.toNat s.work.plen.toNat r = r :=
  Run.check_of s (h.imp_left (congrArg BitVec.toNat))

theorem exec_emitResultEnc {s : State} (htag : s.host.tagLen.toNat ≤ 16)
    (hwbuf : s.work.plen = 0 ∨ s.work.payloadOffset.toNat + s.work.plen.toNat ≤ s.cap)
    (hout : s.work.plen.toNat + s.host.tagLen.toNat ≤ s.cap) :
    exec .emitResultEnc s = .next ((s.emit s.wireBytes (s.work.plen + s.host.tagLen)).goto .cleanup) := by
  have hoff : 0 + (s.work.plen.toNat + s.host.tagLen.toNat) ≤ s.capacity .out := by
    rw [Nat.zero_add]
    exact hout
  show execEmitResultEnc s = _
  rw [execEmitResultEnc, Run.tagFits_of_le s htag, inSpace_payload hwbuf, Run.inSpace_of_le s hoff]
  rfl

/-- The sum of two lengths within CAP does not wrap (R12). -/
theorem toNat_add_of_le_cap {s : State} {x y : Word} (h : x.toNat + y.toNat ≤ s.cap) :
    (x + y).toNat = x.toNat + y.toNat := by
  obtain ⟨-, -, hcap⟩ := cap_bounds s
  exact BitVec.toNat_add_of_lt (by omega)

/-- Settles O49: the step is one emission of the wire bytes, and OUT_LEN is their number because CAP is below 2^32. -/
theorem emitResultEncWritesOutput : Obligations.EmitResultEncWritesOutput := by
  intro s htag hwbuf hout
  exact ⟨_, exec_emitResultEnc htag hwbuf hout, rfl, toNat_add_of_le_cap hout,
    get_writeBytes_wireBytes htag s.result.out⟩

end Sys2Proof.Machine
end

section
/-! Two transactions of the host interface: HRD reads the register table of R242 and changes only the reply; a CMD word
without GO, written while idle, writes nothing (R245). -/

namespace Sys2Proof.Machine

/-! ### STATUS as a number (R102) -/

/-- Appending low bits puts the high ones above them. -/
theorem toNat_append_eq_add {m n : Nat} (x : BitVec m) (y : BitVec n) :
    (x ++ y).toNat = 2 ^ n * x.toNat + y.toNat := by
  rw [BitVec.toNat_append, ← Nat.shiftLeft_add_eq_or_of_lt y.isLt, Nat.shiftLeft_eq, Nat.mul_comm]

theorem ResultState.toNat_status (r : ResultState) :
    r.status.toNat = r.busy.toNat + 2 * r.done.toNat + 4 * r.rej.toNat + 16 * (errCode r.err).toNat := by
  simp only [ResultState.status, toNat_append_eq_add, BitVec.toNat_ofBool, BitVec.ofNat_eq_ofNat,
    BitVec.toNat_zero]
  omega

/-! ### The register table of R242 -/

/-- The registers that are neither CMD, STATUS, OUT_LEN nor CAPACITY are read in the host-owned state. -/
theorem hostRead_of_ne {reg : Word} (s : State) (h0 : reg.toNat ≠ 0) (h1 : reg.toNat ≠ 1) (h8 : reg.toNat ≠ 8)
    (h9 : reg.toNat ≠ 9) : s.hostRead reg = (s.host.readReg reg).getD 0 := by
  unfold State.hostRead
  split
  case h_5 => rfl
  all_goals contradiction

theorem hostRead_of_readReg_eq_some {reg v : Word} (s : State) (hlo : 2 ≤ reg.toNat) (hhi : reg.toNat ≤ 7)
    (h : s.host.readReg reg = some v) : s.hostRead reg = v := by
  rw [hostRead_of_ne s (by omega) (by omega) (by omega) (by omega), h, Option.getD_some]

theorem readReg_of_ten_le {reg : Word} (h : HostOwned) (hreg : 10 ≤ reg.toNat) : h.readReg reg = none := by
  unfold HostOwned.readReg
  split
  case h_7 => rfl
  all_goals omega

theorem hostRead_of_ten_le {reg : Word} (s : State) (h : 10 ≤ reg.toNat) : s.hostRead reg = 0 := by
  rw [hostRead_of_ne s (by omega) (by omega) (by omega) (by omega), readReg_of_ten_le s.host h, Option.getD_none]

theorem hostRead_cmd {reg : Word} (s : State) (h : reg.toNat = 0) : s.hostRead reg = 0 := by
  simp only [State.hostRead, h]

theorem hostRead_status {reg : Word} (s : State) (h : reg.toNat = 1) : s.hostRead reg = s.result.status := by
  simp only [State.hostRead, h]

theorem hostRead_outLen {reg : Word} (s : State) (h : reg.toNat = 8) :
    s.hostRead reg = if s.result.busy then 0 else s.result.outLen := by
  simp only [State.hostRead, h]

/-- CAPACITY reads back as CAP itself, which fits a word (R6). -/
theorem toNat_hostRead_capacity {reg : Word} (s : State) (h : reg.toNat = 9) : (s.hostRead reg).toNat = s.cap := by
  obtain ⟨-, -, hcap⟩ := cap_bounds s
  simp only [State.hostRead, h]
  exact Nat.mod_eq_of_lt (by omega)

theorem exec_hrd (reg : Word) (s : State) : exec (.hrd reg) s = .next (s.respond (.word (s.hostRead reg))) := rfl

/-- Settles O11: the reply is the read of the table, row by row; STATUS is the number its fields make. -/
theorem hrdReturnsRegister : Obligations.HrdReturnsRegister := by
  intro reg s
  refine ⟨s.hostRead reg, exec_hrd reg s, hostRead_cmd s, ?status, ?keyCtx, ?nonceLen, ?tagLen, ?aadLenLo, ?aadLenHi,
    ?inputLen, hostRead_outLen s, toNat_hostRead_capacity s, hostRead_of_ten_le s⟩
  case status =>
    intro h
    rw [hostRead_status s h, ResultState.toNat_status]
    cases s.result.err with
    | none => rfl
    | some e => cases e <;> rfl
  all_goals
    intro h
    exact hostRead_of_readReg_eq_some s (by omega) (by omega) (by simp only [HostOwned.readReg, h])

/-! ### CMD words without GO -/

theorem cmdWrite_of_go_clear {s : State} {w : Word} (hidle : s.result.busy = false) (hgo : w.getLsbD 0 = false) :
    s.cmdWrite w = s := by
  obtain ⟨hbusy, -⟩ | ⟨-, -, hsame⟩ | ⟨-, hset, -⟩ := cmdWrite_cases s w
  · exact absurd (hidle.symm.trans hbusy) Bool.false_ne_true
  · exact hsame
  · exact absurd (hgo.symm.trans hset) Bool.false_ne_true

theorem exec_nop (ignored : BitVec 31) (s : State) :
    exec (.nop ignored) s = .next (s.cmdWrite (ignored ++ BitVec.ofBool false)) := rfl

/-- Settles O15: bit 0 of a NOP word is its cleared GO, whatever the ignored bits are. -/
theorem nopWritesNothing : Obligations.NopWritesNothing := by
  intro ignored s hidle
  rw [exec_nop, cmdWrite_of_go_clear hidle (getLsbD_nopWord ignored 0)]

end Sys2Proof.Machine
end

section
/-! The two encodings: CMD words by their fields (R100, R101) and PHASE codes (R104, R120), and the round trip of
decoder and encoder over every operation that something selects. -/

namespace Sys2Proof

/-! ### CMD words field by field -/

/-- The reserved field of a CMD word, bits 31:3. -/
abbrev reservedField (w : Word) : BitVec 29 := w.extractLsb' 3 29

theorem cmdWord_inj {r r' : BitVec 29} {k k' e e' g g' : Bool} :
    cmdWord r k e g = cmdWord r' k' e' g' ↔ r = r' ∧ k = k' ∧ e = e' ∧ g = g' := by
  refine ⟨fun h => ?_, fun ⟨hr, hk, he, hg⟩ => by rw [hr, hk, he, hg]⟩
  have hbit i := congrArg (BitVec.getLsbD · i) h
  simp only [getLsbD_cmdWord] at hbit
  exact ⟨by rw [← extract_cmdWord r k e g, h, extract_cmdWord], hbit 2, hbit 1, hbit 0⟩

/-- A mask acts on each field on its own. -/
theorem and_cmdWord (r r' : BitVec 29) (k k' e e' g g' : Bool) :
    cmdWord r k e g &&& cmdWord r' k' e' g' = cmdWord (r &&& r') (k && k') (e && e') (g && g') := by
  apply BitVec.eq_of_getLsbD_eq
  intro i _
  simp only [BitVec.getLsbD_and, getLsbD_cmdWord]
  split_ifs <;> rfl

/-- A word under the mask of some of its fields. -/
theorem and_mask (w : Word) (r : BitVec 29) (k e g : Bool) :
    w &&& cmdWord r k e g = cmdWord (reservedField w &&& r) (w.getLsbD 2 && k) (w.getLsbD 1 && e) (w.getLsbD 0 && g) := by
  conv_lhs => rw [← cmdWord_fields w]
  exact and_cmdWord ..

theorem and_goMask (w : Word) : w &&& 1#32 = cmdWord 0 false false (w.getLsbD 0) := by
  have hmask : 1#32 = cmdWord 0 false false true := by decide
  rw [hmask, and_mask]
  simp

/-- The mask of R101 that leaves out KEEP_KEY. -/
theorem and_armMask (w : Word) : w &&& 0xFFFFFFFB#32 = cmdWord (reservedField w) false (w.getLsbD 1) (w.getLsbD 0) := by
  have hmask : 0xFFFFFFFB#32 = cmdWord (BitVec.allOnes 29) false true true := by decide
  rw [hmask, and_mask, BitVec.and_allOnes, Bool.and_false, Bool.and_true, Bool.and_true]

theorem and_reservedMask (w : Word) : w &&& 0xFFFFFFF8#32 = cmdWord (reservedField w) false false false := by
  have hmask : 0xFFFFFFF8#32 = cmdWord (BitVec.allOnes 29) false false false := by decide
  rw [hmask, and_mask, BitVec.and_allOnes, Bool.and_false, Bool.and_false, Bool.and_false]

theorem go_clear_iff (w : Word) : w &&& 1#32 = 0#32 ↔ w.getLsbD 0 = false := by
  have hzero : 0#32 = cmdWord 0 false false false := by decide
  rw [and_goMask, hzero, cmdWord_inj]
  simp

theorem go_set_iff (w : Word) : w &&& 1#32 = 1#32 ↔ w.getLsbD 0 = true := by
  have hone : 1#32 = cmdWord 0 false false true := by decide
  rw [and_goMask, hone, cmdWord_inj]
  simp

theorem reserved_clear_iff (w : Word) : w &&& 0xFFFFFFF8#32 = 0#32 ↔ reservedField w = 0 := by
  have hzero : 0#32 = cmdWord 0 false false false := by decide
  rw [and_reservedMask, hzero, cmdWord_inj]
  simp

/-! ### The four readings of R101 -/

theorem decodeCmd_of_go_clear {w : Word} (hgo : w.getLsbD 0 = false) : decodeCmd w = .nop (w.extractLsb' 1 31) :=
  if_pos hgo

theorem decodeCmd_of_reserved {w : Word} (hgo : w.getLsbD 0 = true) (hr : reservedField w ≠ 0) :
    decodeCmd w = .cmdReserved (reservedField w) (w.getLsbD 2) (w.getLsbD 1) := by
  rw [decodeCmd, if_neg (by simp [hgo]), if_pos hr]

theorem decodeCmd_of_arm {w : Word} (hgo : w.getLsbD 0 = true) (hr : reservedField w = 0) :
    decodeCmd w = if w.getLsbD 1 then .ccmEncrypt (w.getLsbD 2) else .ccmDecrypt (w.getLsbD 2) := by
  rw [decodeCmd, if_neg (by simp [hgo]), if_neg (by simpa using hr)]

theorem decodeCmd_cmdWord_of_ne {r : BitVec 29} (k e : Bool) (hr : r ≠ 0) :
    decodeCmd (cmdWord r k e true) = .cmdReserved r k e := by
  rw [decodeCmd_of_reserved (by rw [getLsbD_cmdWord]; rfl) (by rwa [reservedField, extract_cmdWord]), reservedField,
    extract_cmdWord, getLsbD_cmdWord, getLsbD_cmdWord]
  rfl

theorem decodeCmd_cmdWord_zero (k e : Bool) :
    decodeCmd (cmdWord 0 k e true) = if e then .ccmEncrypt k else .ccmDecrypt k := by
  rw [decodeCmd_of_arm (by rw [getLsbD_cmdWord]; rfl) (by rw [reservedField, extract_cmdWord]), getLsbD_cmdWord,
    getLsbD_cmdWord]
  rfl

theorem decodeCmd_nopWord (x : BitVec 31) : decodeCmd (x ++ BitVec.ofBool false : Word) = .nop x := by
  rw [decodeCmd_of_go_clear (getLsbD_nopWord x 0), extract_nopWord]

theorem decode_hwr_zero (w : Word) : decode (.event (.hwr 0 w)) = .ok (decodeCmd w) := rfl

/-! ### The statements about the encodings -/

/-- Settles O1: a CMD row comes back through the fields of its word, a phase row through its code, every other row that
has a selector is its own selector. -/
theorem decodeOfEncodeIsIdentity : Obligations.DecodeOfEncodeIsIdentity := by
  intro i c hwf hreg henc
  cases i
  case ccmEncrypt keep =>
    cases henc
    rw [decode_hwr_zero, decodeCmd_cmdWord_zero]
    rfl
  case ccmDecrypt keep =>
    cases henc
    rw [decode_hwr_zero, decodeCmd_cmdWord_zero]
    rfl
  case nop ignored =>
    cases henc
    rw [decode_hwr_zero, decodeCmd_nopWord]
  case cmdReserved reserved keep isEnc =>
    cases henc
    rw [decode_hwr_zero, decodeCmd_cmdWord_of_ne keep isEnc (bne_iff_ne.mp hwf)]
  case hwr reg value =>
    cases henc
    have hne : reg ≠ 0 := fun h => hreg value (by rw [h])
    exact congrArg Except.ok (if_neg hne)
  all_goals cases henc
  all_goals rfl

/-- Settles O2: under each reading the fields that the reading keeps make up the whole word. -/
theorem everyCmdWordIsReadWhole : Obligations.EveryCmdWordIsReadWhole := by
  intro w
  refine (and_assoc.mp ⟨?_, decode_hwr_zero w⟩)
  cases hgo : w.getLsbD 0 with
  | false =>
    rw [decodeCmd_of_go_clear hgo]
    exact ⟨rfl, by rw [encode, nopWord_fields w hgo]⟩
  | true =>
    have hw := cmdWord_fields w
    rw [hgo] at hw
    by_cases hr : reservedField w = 0
    · rw [decodeCmd_of_arm hgo hr]
      rw [show w.extractLsb' 3 29 = 0 from hr] at hw
      cases he : w.getLsbD 1 <;> rw [he] at hw
      · exact ⟨rfl, by rw [if_neg Bool.false_ne_true, encode, hw]⟩
      · exact ⟨rfl, by rw [if_pos rfl, encode, hw]⟩
    · rw [decodeCmd_of_reserved hgo hr]
      exact ⟨bne_iff_ne.mpr hr, by rw [encode, hw]⟩

/-- Settles O3: each mask of R101 fixes just the fields that its reading tests. -/
theorem cmdWordDecodesByMask : Obligations.CmdWordDecodesByMask := by
  intro w
  have harm : ∀ e : Bool, w &&& 0xFFFFFFFB#32 = cmdWord 0 false e true →
      w.getLsbD 0 = true ∧ reservedField w = 0 ∧ w.getLsbD 1 = e := by
    intro e h
    obtain ⟨hr, -, he, hgo⟩ := cmdWord_inj.mp ((and_armMask w).symm.trans h)
    exact ⟨hgo, hr, he⟩
  refine ⟨fun h => ⟨_, decodeCmd_of_go_clear ((go_clear_iff w).mp h)⟩, fun h => ?encrypt, fun h => ?decrypt,
    fun hgo hr => decodeCmd_of_reserved ((go_set_iff w).mp hgo) fun h0 => hr ((reserved_clear_iff w).mpr h0)⟩
  case encrypt =>
    obtain ⟨hgo, hr, he⟩ := harm true (h.trans (by decide))
    rw [decodeCmd_of_arm hgo hr, he, if_pos rfl]
  case decrypt =>
    obtain ⟨hgo, hr, he⟩ := harm false (h.trans (by decide))
    rw [decodeCmd_of_arm hgo hr, he, if_neg Bool.false_ne_true]

/-- Settles O4: nine closed words, each read by computation. -/
theorem sampleWordsDecode : Obligations.SampleWordsDecode := by
  unfold Obligations.SampleWordsDecode
  decide

theorem decodePhase_of_nine_le {c : BitVec 4} (e : Bool) (h : 9 ≤ c.toNat) :
    decodePhase c e = .error (.reservedPhase c) := by
  unfold decodePhase
  split
  case h_10 => rfl
  all_goals omega

/-- Settles O5: the nine codes by computation, in both arms; a code from 9 on falls through the table. -/
theorem phaseCodesDecode : Obligations.PhaseCodesDecode := by
  refine ⟨fun e => ⟨rfl, rfl, rfl, rfl, rfl, rfl, rfl, rfl, rfl⟩, rfl, fun p => ?code, fun c e h => decodePhase_of_nine_le e h⟩
  case code => cases p <;> rfl

end Sys2Proof
end

section
/-! The writes of the host (R241, R243, R246 to R251) and the commands they start (R244, R252): what each write stores,
when it is dropped, and when it has no target. -/

namespace Sys2Proof.Machine

/-! ### CMD words (R101, R241, R246) -/

/-- Every operation that a CMD word encodes is the write of that word. -/
theorem exec_of_encode_cmd {i : Instr} {w : Word} (s : State) (henc : encode i = some (.event (.hwr 0 w))) :
    exec i s = .next (s.cmdWrite w) := by
  cases i
  all_goals cases henc
  all_goals rfl

theorem exec_decodeCmd (w : Word) (s : State) : exec (decodeCmd w) s = .next (s.cmdWrite w) :=
  exec_of_encode_cmd s (everyCmdWordIsReadWhole w).2.1

theorem exec_cmdReserved (r : BitVec 29) (keep isEnc : Bool) (s : State) :
    exec (.cmdReserved r keep isEnc) s = .next (s.cmdWrite (cmdWord r keep isEnc true)) := rfl

theorem exec_hwr (reg v : Word) (s : State) : exec (.hwr reg v) s = .next (s.hostWrite reg v) := rfl

theorem exec_hwrb (sp : Nat) (off : Word) (v : Byte) (s : State) :
    exec (.hwrb sp off v) s = .next (s.hostWriteByte sp off v) := rfl

theorem hostWrite_zero (v : Word) (s : State) : s.hostWrite 0 v = s.cmdWrite v := if_pos rfl

theorem cmdWrite_of_busy {s : State} (w : Word) (hbusy : s.result.busy = true) : s.cmdWrite w = s.reject := if_pos hbusy

theorem cmdWrite_of_go_set {s : State} {w : Word} (hidle : s.result.busy = false) (hgo : w.getLsbD 0 = true) :
    s.cmdWrite w = s.start w := by
  rw [State.cmdWrite, if_neg (by simp [hidle]), if_pos hgo]

/-! ### Register writes (R241, R249) -/

theorem isHostReg_iff (reg : Word) : isHostReg reg = true ↔ 2 ≤ reg.toNat ∧ reg.toNat ≤ 7 := by
  simp [isHostReg]

theorem ne_zero_of_toNat {reg : Word} (h : reg.toNat ≠ 0) : reg ≠ 0 := fun h0 => h (congrArg BitVec.toNat h0)

theorem hostWrite_of_isHostReg {reg : Word} (v : Word) (s : State) (h : 2 ≤ reg.toNat ∧ reg.toNat ≤ 7) :
    s.hostWrite reg v = if s.result.busy then s.reject else { s with host := s.host.writeReg reg v } := by
  rw [State.hostWrite, if_neg (ne_zero_of_toNat (by omega)), if_pos ((isHostReg_iff reg).mpr h)]

/-- Registers 1 and from 8 on are read-only or unassigned. -/
theorem hostWrite_of_not_isHostReg {reg : Word} (v : Word) (s : State) (h : reg.toNat = 1 ∨ 8 ≤ reg.toNat) :
    s.hostWrite reg v = s := by
  rw [State.hostWrite, if_neg (ne_zero_of_toNat (by omega)), if_neg]
  rw [isHostReg_iff]
  omega

theorem readReg_writeReg_same {reg : Word} (h : HostOwned) (v : Word) (hreg : 2 ≤ reg.toNat ∧ reg.toNat ≤ 7) :
    (h.writeReg reg v).readReg reg = some v := by
  obtain ⟨hlo, hhi⟩ := hreg
  unfold HostOwned.readReg HostOwned.writeReg
  interval_cases reg.toNat <;> rfl

/-- Both registers are looked up in the same table: a write in another row leaves the one read (`rfl`), and the two are
never in the same row (`omega`). -/
theorem readReg_writeReg_other {r reg : Word} (h : HostOwned) (v : Word) (hne : r ≠ reg) :
    (h.writeReg reg v).readReg r = h.readReg r := by
  have hne' : r.toNat ≠ reg.toNat := fun e => hne (BitVec.eq_of_toNat_eq e)
  unfold HostOwned.readReg
  split
  case h_7 => rfl
  all_goals
    unfold HostOwned.writeReg
    split <;> first | rfl | omega

theorem writeReg_spaces (h : HostOwned) (reg v : Word) :
    (h.writeReg reg v).nonce = h.nonce ∧ (h.writeReg reg v).aad = h.aad ∧ (h.writeReg reg v).inp = h.inp := by
  unfold HostOwned.writeReg
  split <;> exact ⟨rfl, rfl, rfl⟩

/-- Of the host-owned state a register read sees the registers alone. -/
theorem hostRead_of_readReg_eq {s : State} {h : HostOwned} {r : Word} (hr : h.readReg r = s.host.readReg r) :
    ({ s with host := h } : State).hostRead r = s.hostRead r := by
  unfold State.hostRead
  split
  case h_5 => rw [hr]
  all_goals rfl

/-- Settles O8: the write goes through the register table, of which it changes one row; CMD is its own case. -/
theorem hwrStoresRegister : Obligations.HwrStoresRegister := by
  refine ⟨fun reg v s hlo hhi hidle => ?_, fun v s => ?_⟩
  · have hwrite : s.hostWrite reg v = { s with host := s.host.writeReg reg v } := by
      rw [hostWrite_of_isHostReg v s ⟨hlo, hhi⟩, if_neg (by simp [hidle])]
    obtain ⟨hnonce, haad, hinp⟩ := writeReg_spaces s.host reg v
    refine ⟨_, (exec_hwr reg v s).trans (congrArg _ hwrite),
      hostRead_of_readReg_eq_some _ hlo hhi (readReg_writeReg_same s.host v ⟨hlo, hhi⟩),
      fun r hr => hostRead_of_readReg_eq (readReg_writeReg_other s.host v hr), ?_⟩
    rw [← hnonce, ← haad, ← hinp]
  · rw [exec_hwr, hostWrite_zero, exec_decodeCmd]

/-! ### Byte writes (R243, R250, R251) -/

/-- The byte spaces the host may write, with their selectors. -/
theorem spaceOfSelector_writable {sp : Nat} (h : sp ≤ 2) :
    ∃ S, spaceOfSelector sp = some S ∧ S ≠ .out ∧ ∀ s : State, s.capacity S = if sp = 0 then 13 else s.cap := by
  interval_cases sp
  · exact ⟨.nonce, rfl, nofun, fun _ => rfl⟩
  · exact ⟨.aad, rfl, nofun, fun _ => rfl⟩
  · exact ⟨.inp, rfl, nofun, fun _ => rfl⟩

theorem hostWriteByte_of_writable {sp : Nat} {S : Space} {off : Word} {s : State} (v : Byte)
    (hsp : spaceOfSelector sp = some S) (hout : S ≠ .out) (hoff : off.toNat < s.capacity S) :
    s.hostWriteByte sp off v = if s.result.busy then s.reject else s.setHostByte S off.toNat v := by
  simp only [State.hostWriteByte, hsp]
  rw [if_neg (by omega), if_neg hout]

theorem hostWriteByte_of_capacity_le {sp : Nat} {S : Space} {off : Word} {s : State} (v : Byte)
    (hsp : spaceOfSelector sp = some S) (hoff : s.capacity S ≤ off.toNat) : s.hostWriteByte sp off v = s := by
  simp only [State.hostWriteByte, hsp]
  exact if_pos hoff

theorem hostWriteByte_out (off : Word) (v : Byte) (s : State) : s.hostWriteByte 3 off v = s := by
  show (if s.capacity .out ≤ off.toNat then s else s) = s
  exact ite_self s

/-- Settles O9: under BUSY each write that has a target comes to the same dropped write. -/
theorem busyWritesOnlySetRej : Obligations.BusyWritesOnlySetRej := by
  intro s hbusy
  have hcmd : ∀ w, Host.Outcome.next (s.cmdWrite w) = (.next s.reject : Host.Outcome State Fault Refusal) :=
    fun w => congrArg _ (cmdWrite_of_busy w hbusy)
  refine ⟨fun k => hcmd _, fun k => hcmd _, fun x => hcmd _, fun r k e => hcmd _, fun reg v hreg => ?_,
    fun sp off v hsp hoff => ?_⟩
  · rw [exec_hwr]
    rcases hreg with rfl | hreg
    · rw [hostWrite_zero]
      exact hcmd v
    · rw [hostWrite_of_isHostReg v s hreg, if_pos hbusy]
      rfl
  · obtain ⟨S, hS, hout, hcap⟩ := spaceOfSelector_writable hsp
    rw [exec_hwrb, hostWriteByte_of_writable v hS hout (by rwa [hcap]), if_pos hbusy]
    rfl

/-- Settles O10: no such register is in the table, and no such byte in a space the host may write. -/
theorem writesWithoutTargetDoNothing : Obligations.WritesWithoutTargetDoNothing := by
  refine ⟨fun reg v s hreg => by rw [exec_hwr, hostWrite_of_not_isHostReg v s hreg], fun sp off v s htarget => ?_⟩
  rw [exec_hwrb]
  congr 1
  by_cases hsp : sp ≤ 2
  · obtain ⟨S, hS, -, hcap⟩ := spaceOfSelector_writable hsp
    have hoff : s.capacity S ≤ off.toNat := by
      rw [hcap]
      exact htarget.resolve_left (by omega)
    exact hostWriteByte_of_capacity_le v hS hoff
  · obtain rfl | ⟨n, rfl⟩ : sp = 3 ∨ ∃ n, sp = n + 4 := by
      by_cases h3 : sp = 3
      · exact .inl h3
      · exact .inr ⟨sp - 4, by omega⟩
    · exact hostWriteByte_out off v s
    · rfl

/-- A byte stored in one space, as every space reads afterwards. -/
theorem space_setHostByte {S : Space} (T : Space) (x : Nat) (v : Byte) (s : State) (hout : S ≠ .out) (hwbuf : S ≠ .wbuf) :
    (s.setHostByte S x v).space T = if T = S then (s.space S).set x v else s.space T := by
  cases S
  case out => exact absurd rfl hout
  case wbuf => exact absurd rfl hwbuf
  all_goals cases T <;> rfl

/-- Storing a byte touches the host's byte spaces alone. -/
theorem setHostByte_eq (S : Space) (x : Nat) (v : Byte) (s : State) :
    s.setHostByte S x v = { s with host := { s.host with
      nonce := (s.setHostByte S x v).host.nonce, aad := (s.setHostByte S x v).host.aad,
      inp := (s.setHostByte S x v).host.inp } } := by
  cases S <;> rfl

/-- Settles O12: an in-range write of a writable space, while idle, is the store of one byte in that space. -/
theorem hwrbStoresByte : Obligations.HwrbStoresByte := by
  intro sp S off v s hsp hidle
  have hwritable : spaceOfSelector sp = some S ∧ S ≠ .out ∧ S ≠ .wbuf ∧ off.toNat < s.capacity S := by
    rcases hsp with ⟨rfl, rfl, hoff⟩ | ⟨rfl, rfl, hoff⟩ | ⟨rfl, rfl, hoff⟩ <;> exact ⟨rfl, nofun, nofun, hoff⟩
  obtain ⟨hS, hout, hwbuf, hoff⟩ := hwritable
  have hstore : s.hostWriteByte sp off v = s.setHostByte S off.toNat v := by
    rw [hostWriteByte_of_writable v hS hout hoff, if_neg (by simp [hidle])]
  refine ⟨_, (exec_hwrb sp off v s).trans (congrArg _ hstore), fun T a => ?_, setHostByte_eq S off.toNat v s⟩
  rw [space_setHostByte T off.toNat v s hout hwbuf]
  by_cases hT : T = S
  · subst hT
    rw [if_pos rfl, Memory.get_set]
    simp only [true_and]
  · rw [if_neg hT, if_neg fun h => hT h.1]

/-! ### START (R244, R252) -/

/-- Settles O14: with GO set the word starts a command whichever of the three operations it encodes. -/
theorem startAcceptsCommand : Obligations.StartAcceptsCommand := by
  intro r k e s hidle
  have hstart : exec (.cmdReserved r k e) s = .next (s.start (cmdWord r k e true)) := by
    rw [exec_cmdReserved, cmdWrite_of_go_set hidle (by rw [getLsbD_cmdWord]; rfl)]
  refine ⟨_, hstart, ?encrypt, ?decrypt, rfl, toNat_cmdWord r k e true, getLsbD_cmdWord r k e true 1,
    getLsbD_cmdWord r k e true 2, fun a => ?out⟩
  case encrypt =>
    rintro rfl rfl
    exact hstart
  case decrypt =>
    rintro rfl rfl
    exact hstart
  case out =>
    rw [start_result, Memory.get_zeroFill]
    simp

end Sys2Proof.Machine
end

section
/-! What the host reads back: byte reads (R243, R248, R250), POLL and CCM_PROCESS (R253 to R255), RESET (R311), and that
no reply depends on the working state (R57). -/

namespace Sys2Proof.Machine

/-! ### Byte reads -/

theorem exec_hrdb (sp : Nat) (off : Word) (s : State) :
    exec (.hrdb sp off) s = .next (s.respond (.byte (s.hostReadByte sp off))) := rfl

theorem hostReadByte_of_space {sp : Nat} {S : Space} (off : Word) (s : State) (hsp : spaceOfSelector sp = some S) :
    s.hostReadByte sp off =
      if off.toNat < s.capacity S ∧ (S = .out → s.result.busy = false) then (s.space S).get off.toNat else 0 := by
  simp only [State.hostReadByte, hsp]
  by_cases hoff : s.capacity S ≤ off.toNat
  · rw [if_pos hoff, if_neg (by omega)]
  · rw [if_neg hoff]
    by_cases hbusy : S = .out ∧ s.result.busy = true
    · rw [if_pos hbusy, if_neg (by simp [hbusy])]
    · rw [if_neg hbusy, if_pos ⟨by omega, fun hS => by simpa [hS] using hbusy⟩]

/-- Settles O13: one row for each selector, and none from 4 on. -/
theorem hrdbReturnsByte : Obligations.HrdbReturnsByte := by
  intro sp off s
  refine ⟨s.hostReadByte sp off, exec_hrdb sp off s, ?nonce, ?aad, ?inp, ?out, ?unassigned⟩
  case unassigned =>
    intro h
    obtain ⟨n, rfl⟩ : ∃ n, sp = n + 4 := ⟨sp - 4, by omega⟩
    rfl
  all_goals
    rintro rfl
    rw [hostReadByte_of_space off s rfl]
    simp [State.capacity, State.space]

/-! ### STATUS and POLL (R102, R253) -/

theorem status_busy (r : ResultState) : r.status.getLsbD 0 = r.busy := by
  rw [ResultState.status, BitVec.getLsbD_append]
  exact BitVec.getLsbD_ofBool r.busy 0

theorem status_err (r : ResultState) : r.status.extractLsb' 4 4 = errCode r.err := by
  apply BitVec.eq_of_toNat_eq
  have hb := r.busy.toNat_le
  have hd := r.done.toNat_le
  have hj := r.rej.toNat_le
  have he := (errCode r.err).isLt
  rw [BitVec.extractLsb'_toNat, ResultState.toNat_status, Nat.shiftRight_eq_div_pow]
  omega

theorem exec_poll (s : State) : exec .poll s = .next (if s.result.busy
    then (s.respond (.word s.result.status)).schedule [.tick, .poll] else s.respond (.word s.result.status)) := by
  rw [← status_busy]
  rfl

/-- Settles O16: bit 0 of STATUS is BUSY, so POLL goes on exactly while it is set. -/
theorem pollReadsStatus : Obligations.PollReadsStatus := by
  intro s
  refine ⟨fun hidle => ?_, fun hbusy => ?_⟩
  · rw [exec_poll, if_neg (by simp [hidle])]
    rfl
  · rw [exec_poll, if_pos hbusy]
    rfl

/-! ### CCM_PROCESS (R254, R255) -/

theorem byteWrites_eq_map (space off : Nat) (bs : List Byte) :
    byteWrites space off bs = (bs.zipIdx off).map fun p => .hwrb space (BitVec.ofNat 32 p.2) p.1 := by
  induction bs generalizing off with
  | nil => rfl
  | cons b bs ih => rw [byteWrites, ih, List.zipIdx_cons, List.map_cons]

/-- The cut at a capacity does not see the length handed over with the string, as they agree. -/
theorem take_min_length {l : List Byte} {n k : Nat} (h : l.length = n) : l.take (min n k) = l.take k := by
  rw [← h, Nat.min_comm, ← List.take_eq_take_min]

theorem aadLen_lo (n : Long) : n.setWidth 32 = BitVec.ofNat 32 (n.toNat % 2 ^ 32) := by
  apply BitVec.eq_of_toNat_eq
  rw [BitVec.toNat_setWidth, BitVec.toNat_ofNat, Nat.mod_mod]

theorem aadLen_hi (n : Long) : n.extractLsb' 32 32 = BitVec.ofNat 32 (n.toNat / 2 ^ 32) := by
  apply BitVec.eq_of_toNat_eq
  rw [BitVec.extractLsb'_toNat, BitVec.toNat_ofNat, Nat.shiftRight_eq_div_pow]

theorem cmdWord_zero_eq_ofNat (k e : Bool) :
    cmdWord 0 k e true = BitVec.ofNat 32 (1 + 2 * e.toNat + 4 * k.toNat) := by
  apply BitVec.eq_of_toNat_eq
  have hk := k.toNat_le
  have he := e.toNat_le
  rw [toNat_cmdWord, BitVec.toNat_ofNat]
  simp only [BitVec.ofNat_eq_ofNat, BitVec.toNat_zero, Bool.toNat_true]
  omega

/-- Settles O17: the expansion of R255, its byte writes read as an indexed list and its words as numbers. -/
theorem ccmProcessIssuesTransactions : Obligations.CcmProcessIssuesTransactions := by
  intro a s hwf
  simp only [CcmArgs.wellFormed, Bool.and_eq_true, beq_iff_eq] at hwf
  obtain ⟨⟨hnonce, haad⟩, hinput⟩ := hwf
  refine ⟨s.schedule (ccmTransactions s.cap a), rfl, rfl, ?_⟩
  rw [schedule_env, ccmTransactions, take_min_length hnonce, take_min_length haad, take_min_length hinput,
    byteWrites_eq_map, byteWrites_eq_map, byteWrites_eq_map, aadLen_lo, aadLen_hi, cmdWord_zero_eq_ofNat]

/-- `MemRead` as the list of the bytes at its offsets. -/
theorem readBytes_eq_map (m : Memory) (x n : Nat) : m.readBytes x n = (List.range n).map fun i => m.get (x + i) := by
  induction n generalizing x with
  | zero => rfl
  | succ n ih =>
    rw [Memory.readBytes, ih, List.range_succ_eq_map, List.map_cons, List.map_map]
    simp only [Nat.add_zero, Function.comp_def, Nat.succ_eq_add_one, Nat.add_assoc, Nat.add_comm 1]

theorem readOut_of_idle {s : State} {n : Nat} (hidle : s.result.busy = false) (hn : n ≤ s.cap) :
    s.readOut n = s.result.out.readBytes 0 n := by
  obtain ⟨-, -, hcap⟩ := cap_bounds s
  rw [readBytes_eq_map]
  refine List.map_congr_left fun i hi => ?_
  have hlt := List.mem_range.mp hi
  have hoff : (BitVec.ofNat 32 i).toNat = i := by
    rw [BitVec.toNat_ofNat]
    omega
  rw [hostReadByte_of_space _ s rfl, hoff, Nat.zero_add]
  exact if_pos ⟨Nat.lt_of_lt_of_le hlt hn, fun _ => hidle⟩

theorem step_of_nextEvent {s : State} {e : Event} (h : s.nextEvent = e) : step s = runEvent e s.takeEvent := by
  rw [step, h]

/-- Settles O18: bits 7:4 of STATUS are the code of ERR, and an idle host may read every byte of OUT below CAP. -/
theorem ccmReturnReportsResult : Obligations.CcmReturnReportsResult := by
  intro s hnext hidle hlen
  have hstatus : (s.takeEvent.hostRead 1).extractLsb' 4 4 = errCode s.result.err := by
    rw [hostRead_status _ rfl]
    exact status_err s.result
  have houtLen : s.takeEvent.hostRead 8 = s.result.outLen := by
    rw [hostRead_outLen _ rfl]
    exact if_neg (by simp [hidle])
  rw [step_of_nextEvent hnext]
  show Host.Outcome.next s.takeEvent.ccmReturn = _
  rw [State.ccmReturn, hstatus, houtLen, readOut_of_idle (s := s.takeEvent) hidle hlen]
  cases s.result.err with
  | none => rfl
  | some e => cases e <;> rfl

/-! ### RESET (R311) -/

/-- Settles O19: every register and byte of the reset state reads 0, CAPACITY excepted. -/
theorem resetZeroesEverything : Obligations.ResetZeroesEverything := by
  intro s
  refine ⟨{ State.reset with capUnits := s.capUnits, env := s.env }, rfl, fun reg hreg => ?regs,
    toNat_hostRead_capacity _ rfl, fun S a => ?spaces, rfl⟩
  case regs =>
    unfold State.hostRead
    split
    case h_2 => show ResultState.zero.status = 0; decide
    case h_4 h => exact absurd h hreg
    case h_5 => unfold HostOwned.readReg; split <;> rfl
    all_goals rfl
  case spaces => cases S <;> rfl

/-! ### The replies do not depend on the working state (R57) -/

/-- The two states agree on all that a reply to the host may depend on. -/
structure SameReplies (s t : State) : Prop where
  eq : t = { s with work := t.work, ctl := t.ctl, result := { s.result with out := t.result.out, outLen := t.result.outLen } }
  out : s.result.busy = false → t.result.out = s.result.out ∧ t.result.outLen = s.result.outLen

section
variable {s t : State}

theorem SameReplies.busy (h : SameReplies s t) : t.result.busy = s.result.busy := by rw [h.eq]

theorem SameReplies.env (h : SameReplies s t) : t.env = s.env := by rw [h.eq]

theorem SameReplies.capUnits (h : SameReplies s t) : t.capUnits = s.capUnits := by rw [h.eq]

theorem SameReplies.host (h : SameReplies s t) : t.host = s.host := by rw [h.eq]

theorem SameReplies.status (h : SameReplies s t) : t.result.status = s.result.status := by
  rw [h.eq]
  rfl

theorem SameReplies.takeEvent (h : SameReplies s t) : SameReplies s.takeEvent t.takeEvent where
  eq := by
    conv_lhs => rw [h.eq]
    rfl
  out := h.out

theorem SameReplies.hostRead (h : SameReplies s t) (reg : Word) : t.hostRead reg = s.hostRead reg := by
  unfold State.hostRead State.cap
  rw [h.status, h.busy, h.capUnits, h.host]
  cases hbusy : s.result.busy with
  | true => rfl
  | false => rw [(h.out hbusy).2]

theorem SameReplies.space (h : SameReplies s t) {S : Space} (hwbuf : S ≠ .wbuf)
    (hout : S = .out → s.result.busy = false) : t.space S = s.space S := by
  rw [h.eq]
  cases S
  case wbuf => exact absurd rfl hwbuf
  case out => exact (h.out (hout rfl)).1
  all_goals rfl

theorem SameReplies.capacity (h : SameReplies s t) (S : Space) : t.capacity S = s.capacity S := by
  rw [h.eq]
  cases S <;> rfl

/-- WBUF has no selector (R51). -/
theorem spaceOfSelector_ne_wbuf (sp : Nat) : spaceOfSelector sp ≠ some .wbuf := by
  unfold spaceOfSelector
  split <;> nofun

theorem SameReplies.hostReadByte (h : SameReplies s t) (sp : Nat) (off : Word) :
    t.hostReadByte sp off = s.hostReadByte sp off := by
  cases hsp : spaceOfSelector sp with
  | none => simp only [State.hostReadByte, hsp]
  | some S =>
    have hwbuf : S ≠ .wbuf := by
      rintro rfl
      exact spaceOfSelector_ne_wbuf sp hsp
    rw [hostReadByte_of_space off t hsp, hostReadByte_of_space off s hsp, h.capacity, h.busy]
    refine ite_congr rfl (fun hread => ?_) fun _ => rfl
    rw [h.space hwbuf hread.2]

theorem SameReplies.respond_env (h : SameReplies s t) (r : Resp) : (s.respond r).env = (t.respond r).env := by
  rw [Sys2Proof.Machine.respond_env, Sys2Proof.Machine.respond_env, h.env]

theorem SameReplies.ccmReturn_env (h : SameReplies s t) : s.ccmReturn.env = t.ccmReturn.env := by
  have hout : ∀ n, t.readOut n = s.readOut n := fun n => List.map_congr_left fun i _ => h.hostReadByte 3 _
  unfold State.ccmReturn
  simp only [h.hostRead, hout]
  split
  · exact h.respond_env _
  · exact h.respond_env _

theorem SameReplies.poll_env (h : SameReplies s t) {s' t' : State} (hs : exec .poll s = .next s')
    (ht : exec .poll t = .next t') : s'.env = t'.env := by
  rw [exec_poll] at hs ht
  cases hs
  cases ht
  rw [h.busy, h.status]
  split
  · rw [schedule_env, schedule_env, h.respond_env]
  · exact h.respond_env _

end

/-- Settles O58: the two states take the same event and give it the same reply. -/
theorem hostReadsHideWorkingState : Obligations.HostReadsHideWorkingState := by
  intro s t s' t' heq hout hevent hs ht
  have h : SameReplies s.takeEvent t.takeEvent := SameReplies.takeEvent ⟨heq, hout⟩
  have hnext : t.nextEvent = s.nextEvent := by
    rw [heq]
    rfl
  rw [step_of_nextEvent rfl] at hs
  rw [step_of_nextEvent hnext] at ht
  rcases hevent with hpoll | hreturn | ⟨r, hread⟩ | ⟨sp, o, hreadb⟩
  · rw [hpoll] at hs ht
    exact h.poll_env hs ht
  · rw [hreturn] at hs ht
    cases hs
    cases ht
    exact h.ccmReturn_env
  · rw [hread] at hs ht
    cases hs
    cases ht
    rw [h.hostRead]
    exact h.respond_env _
  · rw [hreadb] at hs ht
    cases hs
    cases ht
    rw [h.hostReadByte]
    exact h.respond_env _

end Sys2Proof.Machine
end

section
/-! One step (R120, R200, R219, R240): the next event is taken, and the operation its selector decodes to is run. -/

namespace Sys2Proof.Machine

theorem runSelector_of_decode {c : Selector} {i : Instr} (s : State) (h : decode c = .ok i) :
    runSelector c s = exec i s := by
  rw [runSelector, h]

/-- Settles O6: `ccmReturn` decodes to no operation, a turn of the Orchestrator is run where it is not stuck, and every
other event is run as it decodes. -/
theorem stepRunsDecodedOperation : Obligations.StepRunsDecodedOperation := by
  intro s i hhung hdec
  rw [step_of_nextEvent rfl]
  cases he : s.nextEvent
  case tick =>
    rw [he] at hdec
    exact (if_neg (by simp [hhung he])).trans (runSelector_of_decode _ hdec)
  case ccmReturn =>
    rw [he] at hdec
    cases hdec
  all_goals
    rw [he] at hdec
    exact runSelector_of_decode _ hdec

/-- Settles O7: the turn of a stuck Orchestrator is the taking of the event alone. -/
theorem stuckOrchestratorStandsStill : Obligations.StuckOrchestratorStandsStill := by
  intro s htick hhung
  rw [step_of_nextEvent htick]
  exact if_pos hhung

/-- Settles O38: the row of IDLE is the identity. -/
theorem idleTakesNoStep : Obligations.IdleTakesNoStep := fun _ => rfl

end Sys2Proof.Machine
end

section
/-! The checked arithmetic of R11, the B0 flags byte (R107, R140) and the comparison of tags (R183). -/

namespace Sys2Proof.Machine

/-! ### A function run on its own: its value returned, or its `raise` performed -/

theorem exec_cadd32 (a b : Word) (s : State) :
    exec (.cadd32 a b) s = (Run.ofExcept (addChecked a b) s).thenRespond .word := rfl

theorem exec_ceil16 (x : Word) (s : State) :
    exec (.ceil16 x) s = (Run.ofExcept (roundUp16 x) s).thenRespond .word := rfl

theorem exec_encB0Flags (nonceLen tagLen : Word) (aad : Bool) (payloadLen : Word) (s : State) :
    exec (.encB0Flags nonceLen tagLen aad payloadLen) s
      = (Run.ofExcept (encodeB0Flags nonceLen tagLen aad payloadLen) s).thenRespond .byte := rfl

theorem exec_encB0 (nonce : NonceBytes) (nonceLen tagLen : Word) (aadLen : Long) (payloadLen : Word) (s : State) :
    exec (.encB0 nonce nonceLen tagLen aadLen payloadLen) s
      = (Run.ofExcept (encodeB0 nonce nonceLen tagLen aadLen payloadLen) s).thenRespond (fun b => .bytes b.toList) := rfl

theorem thenRespond_ofExcept_ok {α : Type} {x : Except CcmError α} {a : α} (s : State) (f : α → Resp) (h : x = .ok a) :
    (Run.ofExcept x s).thenRespond f = .next (s.respond (f a)) := by
  rw [h]
  rfl

theorem thenRespond_ofExcept_error {α : Type} {x : Except CcmError α} {e : CcmError} (s : State) (f : α → Resp)
    (h : x = .error e) : (Run.ofExcept x s).thenRespond f = .next (s.failureEntry e) := by
  rw [h]
  rfl

/-! ### Checked arithmetic -/

/-- Settles O25: each function has the two ends its law gives, and its bound tells them apart. -/
theorem checkedArithmeticNeverWraps : Obligations.CheckedArithmeticNeverWraps := by
  refine ⟨fun a b s => ?_, fun x s => ?_⟩
  · rw [exec_cadd32]
    obtain ⟨hlt, w, hok, hw⟩ | ⟨hle, herr⟩ := addChecked_cases a b
    · exact ⟨fun _ => ⟨w, hw, thenRespond_ofExcept_ok s _ hok⟩, fun h => absurd hlt (by omega)⟩
    · exact ⟨fun h => absurd hle (by omega), fun _ => thenRespond_ofExcept_error s _ herr⟩
  · rw [exec_ceil16]
    obtain ⟨hlt, w, hok, hmod, hlo, hhi⟩ | ⟨hle, herr⟩ := roundUp16_cases x
    · exact ⟨fun _ => ⟨w, hmod, hlo, hhi, thenRespond_ofExcept_ok s _ hok⟩, fun h => absurd hlt (by omega)⟩
    · exact ⟨fun h => absurd hle (by omega), fun _ => thenRespond_ofExcept_error s _ herr⟩

/-! ### The B0 flags byte -/

/-- A bit of a byte given as a number. -/
theorem getLsbD_ofNat_byte (v : Nat) {i : Nat} (hi : i < 8) :
    (BitVec.ofNat 8 v).getLsbD i = decide (v / 2 ^ i % 2 = 1) := by
  rw [BitVec.getLsbD_ofNat, Nat.testBit_eq_decide_div_mod_eq, decide_eq_true hi, Bool.true_and]

/-- Three bits of a byte given as a number. -/
theorem toNat_extract_byte (v lo : Nat) : ((BitVec.ofNat 8 v).extractLsb' lo 3).toNat = v % 256 / 2 ^ lo % 8 := by
  rw [BitVec.extractLsb'_toNat, BitVec.toNat_ofNat, Nat.shiftRight_eq_div_pow]

theorem legalTagLen_le {t : Word} (h : t.toNat ∈ [4, 6, 8, 10, 12, 14, 16]) : 4 ≤ t.toNat ∧ t.toNat ≤ 16 := by
  have hbounds : ∀ n ∈ [4, 6, 8, 10, 12, 14, 16], 4 ≤ n ∧ n ≤ 16 := by decide
  exact hbounds _ h

/-- Settles O26: the fields are digits of the flags value, which therefore does not carry from one into the next. -/
theorem b0FlagsLayout : Obligations.B0FlagsLayout := by
  intro nonceLen tagLen payloadLen aad s ht hn7 hn13 hp
  have hok := encodeB0Flags_eq aad
    ⟨(legalTagLen_iff tagLen).mpr ht, (legalNonceLen_iff nonceLen).mpr ⟨hn7, hn13⟩, (lengthFits_iff _ payloadLen).mpr hp⟩
  obtain ⟨-, ht16⟩ := legalTagLen_le ht
  have haad := aad.toNat_le
  have hvalue : b0FlagsValue nonceLen tagLen aad
      = 64 * aad.toNat + 8 * ((tagLen.toNat - 2) / 2) + (14 - nonceLen.toNat) := rfl
  refine ⟨_, (exec_encB0Flags ..).trans (thenRespond_ofExcept_ok s _ hok), ?top, ?aad, ?tag, ?nonce⟩
  case top =>
    rw [getLsbD_ofNat_byte _ (by decide), decide_eq_false_iff_not]
    omega
  case aad =>
    rw [getLsbD_ofNat_byte _ (by decide)]
    have hdigit : b0FlagsValue nonceLen tagLen aad / 2 ^ 6 % 2 = aad.toNat := by omega
    rw [hdigit]
    cases aad <;> rfl
  case tag =>
    rw [toNat_extract_byte]
    omega
  case nonce =>
    rw [toNat_extract_byte]
    omega

theorem encodeB0Flags_invalid {nonceLen tagLen : Word} (aad : Bool) (payloadLen : Word)
    (h : legalTagLen tagLen = false ∨ legalNonceLen nonceLen = false) :
    encodeB0Flags nonceLen tagLen aad payloadLen = .error .invalidArgument := by
  unfold encodeB0Flags
  rcases h with h | h <;> simp [h]

theorem encodeB0Flags_badLength {nonceLen tagLen payloadLen : Word} (aad : Bool) (ht : legalTagLen tagLen = true)
    (hn : legalNonceLen nonceLen = true) (hp : lengthFits (15 - nonceLen.toNat) payloadLen = false) :
    encodeB0Flags nonceLen tagLen aad payloadLen = .error .badLength := by
  simp [encodeB0Flags, ht, hn, hp]

/-- ENC_B0 raises what its flags byte raises. -/
theorem encodeB0_error {nonceLen tagLen payloadLen : Word} {aadLen : Long} {e : CcmError} (nonce : NonceBytes)
    (h : encodeB0Flags nonceLen tagLen (aadLen != 0) payloadLen = .error e) :
    encodeB0 nonce nonceLen tagLen aadLen payloadLen = .error e := by
  rw [encodeB0, h]
  rfl

/-- Settles O27: both functions make the tests of the flags byte, in one order. -/
theorem b0FlagsRejectsInOrder : Obligations.B0FlagsRejectsInOrder := by
  intro nonce nonceLen tagLen payloadLen aad aadLen s
  have hboth : ∀ e, (∀ a, encodeB0Flags nonceLen tagLen a payloadLen = .error e) →
      exec (.encB0Flags nonceLen tagLen aad payloadLen) s = .next (s.failureEntry e)
      ∧ exec (.encB0 nonce nonceLen tagLen aadLen payloadLen) s = .next (s.failureEntry e) := fun e h =>
    ⟨(exec_encB0Flags ..).trans (thenRespond_ofExcept_error s _ (h aad)),
      (exec_encB0 ..).trans (thenRespond_ofExcept_error s _ (encodeB0_error nonce (h _)))⟩
  refine ⟨fun hillegal => hboth _ fun a => encodeB0Flags_invalid a payloadLen ?_, fun ht hn7 hn13 hp => hboth _ fun a =>
    encodeB0Flags_badLength a ((legalTagLen_iff _).mpr ht) ((legalNonceLen_iff _).mpr ⟨hn7, hn13⟩) ?_⟩
  · rw [← Bool.not_eq_true, ← Bool.not_eq_true, legalTagLen_iff, legalNonceLen_iff]
    exact hillegal.imp_right (by omega)
  · rw [← Bool.not_eq_true, lengthFits_iff]
    omega

/-! ### The comparison of tags -/

/-- An OR-fold is zero exactly where it starts at zero and meets only zeros. -/
theorem foldl_or_eq_zero (f : Nat → Byte) (l : List Nat) (d : Byte) :
    l.foldl (fun d i => d ||| f i) d = 0 ↔ d = 0 ∧ ∀ i ∈ l, f i = 0 := by
  induction l generalizing d with
  | nil => simp
  | cons i l ih =>
    rw [List.foldl_cons, ih, List.forall_mem_cons]
    have hor : d ||| f i = 0 ↔ d = 0 ∧ f i = 0 := BitVec.or_eq_zero_iff
    rw [hor, and_assoc]

theorem verifyTags_iff {cand exp : List Byte} {n : Nat} (hc : cand.length = n) (he : exp.length = n) :
    verifyTags cand exp n = true ↔ cand = exp := by
  rw [verifyTags, beq_iff_eq, tagDifference, foldl_or_eq_zero]
  refine ⟨fun ⟨_, hbytes⟩ => List.ext_getElem (hc.trans he.symm) fun i h1 h2 => ?_, fun h => ⟨rfl, fun i _ => ?_⟩⟩
  · have hxor := BitVec.xor_eq_zero_iff.mp (hbytes i (List.mem_range.mpr (hc ▸ h1)))
    rwa [List.getD_eq_getElem _ _ h1, List.getD_eq_getElem _ _ h2] at hxor
  · rw [h]
    exact BitVec.xor_self

theorem exec_verify {cand exp : List Byte} {tagLen : Word} (s : State) (hc : cand.length = tagLen.toNat)
    (he : exp.length = tagLen.toNat) :
    exec (.verify cand exp tagLen) s = .next (s.respond (.bit (verifyTags cand exp tagLen.toNat))) := by
  show execVerify cand exp tagLen s = _
  rw [execVerify, if_pos ⟨hc, he⟩]
  rfl

/-- Settles O33: the OR of all byte differences is zero only where every byte agrees. -/
theorem verifyIsEquality : Obligations.VerifyIsEquality := fun _ _ _ s hc he =>
  ⟨_, exec_verify s hc he, verifyTags_iff hc he⟩

end Sys2Proof.Machine
end

section
/-! VALIDATE_ARGS (R201, R281, R282, R290) and the failure entry (R288). -/

namespace Sys2Proof.Machine

theorem failureEntry_eq (e : CcmError) (s : State) : s.failureEntry e = { s with
    result := { s.result with err := if s.result.err = none then some e else s.result.err }
    ctl := { s.ctl with phase := .cleanup } } := by
  unfold State.failureEntry
  cases h : s.result.err <;> simp

theorem exec_validateArgs (s : State) : exec .validateArgs s = (checkArgs s).thenGoto .composeFrame := rfl

theorem reservedBitsSet_iff (w : Word) : reservedBitsSet w = true ↔ w &&& 0xFFFFFFF8#32 ≠ 0#32 := by
  rw [ne_eq, reserved_clear_iff]
  exact bne_iff_ne

/-- The parameters pass the four tests of VALIDATE_ARGS that raise InvalidArgument (R201). -/
abbrev State.legalArgs (s : State) : Prop :=
  reservedBitsSet s.ctl.cmdLatch = false ∧ legalTagLen s.host.tagLen = true ∧ legalNonceLen s.host.nonceLen = true
  ∧ (s.isEnc = false → s.host.tagLen.toNat ≤ s.host.inputLen.toNat)

/-- The tests as the statements write them. -/
theorem legalArgs_iff (s : State) : s.legalArgs ↔
    s.ctl.cmdLatch &&& 0xFFFFFFF8#32 = 0#32 ∧ s.host.tagLen.toNat ∈ [4, 6, 8, 10, 12, 14, 16]
    ∧ (7 ≤ s.host.nonceLen.toNat ∧ s.host.nonceLen.toNat ≤ 13)
    ∧ (s.isEnc = false → s.host.tagLen.toNat ≤ s.host.inputLen.toNat) := by
  rw [State.legalArgs, ← legalTagLen_iff, ← legalNonceLen_iff, ← Bool.not_eq_true, reservedBitsSet_iff, not_not]

theorem toNat_payloadLen {s : State} (h : s.isEnc = false → s.host.tagLen.toNat ≤ s.host.inputLen.toNat) :
    s.payloadLen.toNat = if s.isEnc then s.host.inputLen.toNat else s.host.inputLen.toNat - s.host.tagLen.toNat := by
  unfold State.payloadLen
  cases he : s.isEnc with
  | true => rfl
  | false => exact BitVec.toNat_sub_of_le (h he)

/-- Q and PLEN written, the end of VALIDATE_ARGS. -/
def State.setPayload (s : State) : State :=
  { s with work := { s.work with q := BitVec.ofNat 4 (15 - s.host.nonceLen.toNat), plen := s.payloadLen } }

theorem checkArgs_of_not_legal {s : State} (h : ¬ s.legalArgs) : checkArgs s = .raised .invalidArgument s := by
  unfold checkArgs
  by_cases hr : reservedBitsSet s.ctl.cmdLatch = true
  · rw [if_pos hr]
  by_cases ht : legalTagLen s.host.tagLen = false
  · rw [if_neg hr, if_pos ht]
  by_cases hn : legalNonceLen s.host.nonceLen = false
  · rw [if_neg hr, if_neg ht, if_pos hn]
  · have hshort : s.isEnc = false ∧ s.host.inputLen.toNat < s.host.tagLen.toNat := by
      by_contra hlong
      exact h ⟨by simpa using hr, by simpa using ht, by simpa using hn,
        fun he => Nat.le_of_not_lt fun hlt => hlong ⟨he, hlt⟩⟩
    rw [if_neg hr, if_neg ht, if_neg hn, if_pos hshort]

theorem checkArgs_of_legal {s : State} (h : s.legalArgs) :
    checkArgs s = if lengthFits (15 - s.host.nonceLen.toNat) s.payloadLen = false then .raised .badLength s
      else .value () s.setPayload := by
  obtain ⟨hr, ht, hn, hlen⟩ := h
  unfold checkArgs
  rw [if_neg (by simp [hr]), if_neg (by simp [ht]), if_neg (by simp [hn]), if_neg (by
    rintro ⟨he, hlt⟩
    have := hlen he
    omega)]
  rfl

/-- Settles O20: a first error stands because `or` keeps its left side; the reserved bits are the first test. -/
theorem failureEntryRecordsFirstError : Obligations.FailureEntryRecordsFirstError := by
  refine ⟨failureEntry_eq, fun s hreserved => ?_⟩
  have hraise : checkArgs s = .raised .invalidArgument s :=
    checkArgs_of_not_legal fun h => hreserved ((legalArgs_iff s).mp h).1
  refine ⟨s.failureEntry .invalidArgument, by rw [exec_validateArgs, hraise]; rfl, rfl, fun h => ?_, fun h => ?_⟩
  all_goals
    rw [failureEntry_eq]
    simp [h]

/-- Settles O39: past its tests VALIDATE_ARGS writes the two registers. -/
theorem validateArgsAccepts : Obligations.ValidateArgsAccepts := by
  intro s hr ht hn7 hn13 hlen hfits
  have hlegal := (legalArgs_iff s).mpr ⟨hr, ht, ⟨hn7, hn13⟩, hlen⟩
  have hplen := toNat_payloadLen hlen
  have hfit : lengthFits (15 - s.host.nonceLen.toNat) s.payloadLen = true := by
    rwa [lengthFits_iff, hplen]
  have hq : (BitVec.ofNat 4 (15 - s.host.nonceLen.toNat)).toNat = 15 - s.host.nonceLen.toNat := by
    rw [BitVec.toNat_ofNat]
    omega
  refine ⟨s.setPayload.goto .composeFrame, ?_, rfl, hq, hplen⟩
  rw [exec_validateArgs, checkArgs_of_legal hlegal, if_neg (by simp [hfit])]
  rfl

/-- Settles O40: a failed legality test is InvalidArgument, and only past all of them the length is BadLength. -/
theorem validateArgsRejectsInOrder : Obligations.ValidateArgsRejectsInOrder := by
  intro s
  refine ⟨fun hillegal => ?_, fun hr ht hn7 hn13 hlen hlong => ?_⟩
  · have hnot : ¬ s.legalArgs := by
      rw [legalArgs_iff]
      rintro ⟨hr, ht, ⟨hn7, hn13⟩, hlen⟩
      rcases hillegal with h | h | h | h | ⟨he, h⟩
      · exact h hr
      · exact h ht
      · omega
      · omega
      · have := hlen he
        omega
    rw [exec_validateArgs, checkArgs_of_not_legal hnot]
    rfl
  · have hlegal := (legalArgs_iff s).mpr ⟨hr, ht, ⟨hn7, hn13⟩, hlen⟩
    have hfit : lengthFits (15 - s.host.nonceLen.toNat) s.payloadLen = false := by
      rw [← Bool.not_eq_true, lengthFits_iff, toNat_payloadLen hlen]
      omega
    rw [exec_validateArgs, checkArgs_of_legal hlegal, if_pos hfit]
    rfl

end Sys2Proof.Machine
end

section
/-! The collaborator calls (R260 to R263) one answer at a time, and the operations and phase steps that make them: each is
its call with what follows, so that the answer, a failure, a missing return or a failed check decides it. -/

namespace Sys2Proof.Machine

/-! ### ecb_encrypt_block -/

theorem exec_ecbEncryptBlock (s : State) : exec .ecbEncryptBlock s = (requestEcb s).finish (fun _ s => s) := rfl

theorem requestEcb_ok {s : State} {out : Block} {d : List Byte} (h : s.nextAnswer s.ecbCall = .ok out d) :
    requestEcb s = .value () { s.issue s.ecbCall with work := { s.work with s0 := out } } := by
  rw [requestEcb, request_ok h]
  rfl

theorem requestEcb_fail {s : State} (h : s.nextAnswer s.ecbCall = .fail) :
    requestEcb s = .raised .engineFailure (s.issue s.ecbCall) := by
  rw [requestEcb, request_fail h, Run.bind_raised]

theorem requestEcb_noReturn {s : State} (h : s.nextAnswer s.ecbCall = .noReturn) :
    requestEcb s = .stuck (s.issue s.ecbCall) := by
  rw [requestEcb, request_noReturn h, Run.bind_stuck]

/-! ### ctr_encrypt -/

/-- What a successful ctr_encrypt over `WBUF[off, off+len)` writes (R261). -/
def State.storeCtr (off len : Word) (ctr : Block) (d : List Byte) (s : State) : State :=
  { s with work := { s.work with wbuf := s.work.wbuf.writeBytes off.toNat (fitBytes len.toNat d), ctr := ctr } }

section
variable {off len : Word} {s : State}

theorem requestCtr_eq (h16 : len.toNat % 16 = 0) (hb : off.toNat + len.toNat ≤ s.cap) :
    requestCtr off len s
      = (s.request (s.ctrCall off len)).bind fun r u => .value () (u.storeCtr off len r.1 r.2) := by
  rw [requestCtr, if_neg (by simp [h16]), Run.inSpace_of_le s (sp := .wbuf) hb]
  rfl

theorem requestCtr_ok {ctr : Block} {d : List Byte} (h16 : len.toNat % 16 = 0) (hb : off.toNat + len.toNat ≤ s.cap)
    (h : s.nextAnswer (s.ctrCall off len) = .ok ctr d) :
    requestCtr off len s = .value () ((s.issue (s.ctrCall off len)).storeCtr off len ctr d) := by
  rw [requestCtr_eq h16 hb, request_ok h, Run.bind_value]

theorem requestCtr_fail (h16 : len.toNat % 16 = 0) (hb : off.toNat + len.toNat ≤ s.cap)
    (h : s.nextAnswer (s.ctrCall off len) = .fail) :
    requestCtr off len s = .raised .engineFailure (s.issue (s.ctrCall off len)) := by
  rw [requestCtr_eq h16 hb, request_fail h, Run.bind_raised]

theorem requestCtr_noReturn (h16 : len.toNat % 16 = 0) (hb : off.toNat + len.toNat ≤ s.cap)
    (h : s.nextAnswer (s.ctrCall off len) = .noReturn) :
    requestCtr off len s = .stuck (s.issue (s.ctrCall off len)) := by
  rw [requestCtr_eq h16 hb, request_noReturn h, Run.bind_stuck]

/-- The stage-boundary check (R215), and the bound of WBUF (R79, entry 9). -/
theorem requestCtr_badState (h : len.toNat % 16 ≠ 0 ∨ (0 < len.toNat ∧ s.cap < off.toNat + len.toNat)) :
    requestCtr off len s = .raised .badState s := by
  unfold requestCtr
  by_cases h16 : len.toNat % 16 = 0
  · obtain ⟨hpos, hout⟩ := h.resolve_left (not_not.mpr h16)
    rw [if_neg (not_not.mpr h16), Run.inSpace_of_lt s (sp := .wbuf) hpos hout]
  · rw [if_pos h16]

theorem exec_ctrEncrypt (hlen : len ≠ 0) :
    exec (.ctrEncrypt off len) s = (requestCtr off len s).finish (fun _ s => s) := if_neg hlen

theorem exec_cipherPayloadFn (hlen : len ≠ 0) :
    exec (.cipherPayloadFn off len) s = (requestCtr off len s).finish (fun _ s => s) := by
  show (cipherRegion off len s).finish _ = _
  rw [cipherRegion, if_neg hlen]

/-- The phase after CIPHER_PAYLOAD: TAG_FINALIZE on encrypt, TAG_VERIFY on decrypt (R206). -/
def State.afterCipher (s : State) : Phase := if s.isEnc then .tagFinalize else .tagVerify

theorem exec_cipherPayload (hlen : s.work.ppad ≠ 0) :
    exec .cipherPayload s = (requestCtr s.work.payloadOffset s.work.ppad s).thenGoto s.afterCipher := by
  show (cipherRegion s.work.payloadOffset s.work.ppad s).thenGoto s.afterCipher = _
  rw [cipherRegion, if_neg hlen]

theorem exec_cipherPayload_empty (hlen : s.work.ppad = 0) : exec .cipherPayload s = .next (s.goto s.afterCipher) := by
  show (cipherRegion s.work.payloadOffset s.work.ppad s).thenGoto s.afterCipher = _
  rw [cipherRegion, if_pos hlen]
  rfl

/-- A raise of ctr_encrypt, in the call and in the function and the phase that make it (R264). -/
theorem exec_of_requestCtr_raised {e : CcmError} {u : State} (hlen : len ≠ 0)
    (h : requestCtr off len s = .raised e u) :
    exec (.ctrEncrypt off len) s = .next (u.failureEntry e) ∧ exec (.cipherPayloadFn off len) s = .next (u.failureEntry e)
    ∧ (off = s.work.payloadOffset → len = s.work.ppad → exec .cipherPayload s = .next (u.failureEntry e)) := by
  refine ⟨by rw [exec_ctrEncrypt hlen, h, Run.finish_raised], by rw [exec_cipherPayloadFn hlen, h, Run.finish_raised], ?_⟩
  rintro rfl rfl
  rw [exec_cipherPayload hlen, h]
  rfl

/-- A ctr_encrypt that never returns, in the call and in the function and the phase that make it (R219). -/
theorem exec_of_requestCtr_stuck {u : State} (hlen : len ≠ 0) (h : requestCtr off len s = .stuck u) :
    exec (.ctrEncrypt off len) s = .next u.hang ∧ exec (.cipherPayloadFn off len) s = .next u.hang
    ∧ (off = s.work.payloadOffset → len = s.work.ppad → exec .cipherPayload s = .next u.hang) := by
  refine ⟨by rw [exec_ctrEncrypt hlen, h, Run.finish_stuck], by rw [exec_cipherPayloadFn hlen, h, Run.finish_stuck], ?_⟩
  rintro rfl rfl
  rw [exec_cipherPayload hlen, h]
  rfl

/-- WBUF after an answer of the call's length: its bytes over the region, every other byte as it was. -/
theorem get_storeCtr {ctr : Block} {d : List Byte} (hd : d.length = len.toNat) (a : Nat) :
    (s.storeCtr off len ctr d).work.wbuf.get a =
      if off.toNat ≤ a ∧ a < off.toNat + len.toNat then d.getD (a - off.toNat) 0 else s.work.wbuf.get a := by
  show (s.work.wbuf.writeBytes off.toNat (fitBytes len.toNat d)).get a = _
  rw [fitBytes_of_length hd, Memory.get_writeBytes, hd]

end

/-! ### cbc_mac -/

section
variable {len : Word} {s : State}

theorem requestMac_eq (h16 : len.toNat % 16 = 0) (hl : 16 ≤ len.toNat) (hb : len.toNat ≤ s.cap) :
    requestMac len s = (s.request (s.macCall len)).bind fun r u => .value r.1 u := by
  rw [requestMac, if_neg (by omega), Run.inSpace_of_le s (sp := .wbuf) (by rwa [Nat.zero_add])]

/-- The stage-boundary check (R215), and the bound of WBUF (R79, entry 9). -/
theorem requestMac_badState (h : len.toNat % 16 ≠ 0 ∨ len.toNat < 16 ∨ s.cap < len.toNat) :
    requestMac len s = .raised .badState s := by
  unfold requestMac
  by_cases hlen : len.toNat % 16 ≠ 0 ∨ len.toNat < 16
  · rw [if_pos hlen]
  · have hcap : s.capacity .wbuf < 0 + len.toNat := by
      show s.cap < _
      omega
    rw [if_neg hlen, Run.inSpace_of_lt s (by omega) hcap]

theorem computeTag_eq (h16 : len.toNat % 16 = 0) (hl : 16 ≤ len.toNat) (hb : len.toNat ≤ s.cap) :
    computeTag len s = (s.request (s.macCall len)).bind fun r u =>
      Run.tagFits u (.value (r.1.toList.take u.host.tagLen.toNat) u) := by
  rw [computeTag, requestMac_eq h16 hl hb]
  cases s.request (s.macCall len) <;> rfl

theorem computeTag_ok {mac : Block} {d : List Byte} (h16 : len.toNat % 16 = 0) (hl : 16 ≤ len.toNat)
    (hb : len.toNat ≤ s.cap) (ht : s.host.tagLen.toNat ≤ 16) (h : s.nextAnswer (s.macCall len) = .ok mac d) :
    computeTag len s = .value (mac.toList.take s.host.tagLen.toNat) (s.issue (s.macCall len)) := by
  rw [computeTag_eq h16 hl hb, request_ok h, Run.bind_value, Run.tagFits_of_le (s.issue _) ht]
  rfl

theorem requestMac_ok {mac : Block} {d : List Byte} (h16 : len.toNat % 16 = 0) (hl : 16 ≤ len.toNat)
    (hb : len.toNat ≤ s.cap) (h : s.nextAnswer (s.macCall len) = .ok mac d) :
    requestMac len s = .value mac (s.issue (s.macCall len)) := by
  rw [requestMac_eq h16 hl hb, request_ok h, Run.bind_value]

theorem requestMac_fail (h16 : len.toNat % 16 = 0) (hl : 16 ≤ len.toNat) (hb : len.toNat ≤ s.cap)
    (h : s.nextAnswer (s.macCall len) = .fail) :
    requestMac len s = .raised .engineFailure (s.issue (s.macCall len)) := by
  rw [requestMac_eq h16 hl hb, request_fail h, Run.bind_raised]

theorem requestMac_noReturn (h16 : len.toNat % 16 = 0) (hl : 16 ≤ len.toNat) (hb : len.toNat ≤ s.cap)
    (h : s.nextAnswer (s.macCall len) = .noReturn) :
    requestMac len s = .stuck (s.issue (s.macCall len)) := by
  rw [requestMac_eq h16 hl hb, request_noReturn h, Run.bind_stuck]

theorem computeTag_of_raised {e : CcmError} {u : State} (h : requestMac len s = .raised e u) :
    computeTag len s = .raised e u := by
  rw [computeTag, h, Run.bind_raised]

theorem computeTag_of_stuck {u : State} (h : requestMac len s = .stuck u) : computeTag len s = .stuck u := by
  rw [computeTag, h, Run.bind_stuck]

/-- A TAG_LEN above 16 is found once the MAC has come back (entry 9). -/
theorem computeTag_of_long_tag {mac : Block} {d : List Byte} (h16 : len.toNat % 16 = 0) (hl : 16 ≤ len.toNat)
    (hb : len.toNat ≤ s.cap) (ht : 16 < s.host.tagLen.toNat) (h : s.nextAnswer (s.macCall len) = .ok mac d) :
    computeTag len s = .raised .badState (s.issue (s.macCall len)) := by
  rw [computeTag_eq h16 hl hb, request_ok h, Run.bind_value, Run.tagFits_of_lt (s.issue _) ht]

theorem exec_cbcMac : exec (.cbcMac len) s = (requestMac len s).thenRespond (fun b => .bytes b.toList) := rfl

theorem exec_computeTag : exec (.computeTag len) s = (computeTag len s).thenRespond .bytes := rfl

theorem exec_tagPrepareEnc : exec .tagPrepareEnc s
    = ((computeTag s.work.wbufLen s).bind fun t s => .value () (s.setRawTag t)).thenGoto .cipherPayload := rfl

/-- TAG_VERIFY where its padding can be zeroed: the tag is computed over the frame with the padding zeroed (R208). -/
theorem exec_tagVerify (hpad : s.paddingFits) :
    exec .tagVerify s = ((computeTag s.work.wbufLen s.zeroPadding).bind settleTag).thenGoto .emitResult := by
  obtain ⟨hle, hfits⟩ := hpad
  have hspace : s.work.ppad.toNat - s.work.plen.toNat = 0
      ∨ s.tagPos + (s.work.ppad.toNat - s.work.plen.toNat) ≤ s.capacity .wbuf := by
    unfold State.tagPos
    rcases hfits with heq | hcap
    · exact .inl (by rw [heq, Nat.sub_self])
    · refine .inr ?_
      show _ ≤ s.cap
      omega
  show (checkTag s).thenGoto .emitResult = _
  rw [checkTag, Run.check_of s hle, Run.inSpace, Run.check_of s hspace]
  rfl

/-- A raise of COMPUTE_TAG, in the function and in the phases that call it. -/
theorem exec_of_computeTag_raised {e : CcmError} {u : State} (h : computeTag len s = .raised e u) :
    exec (.computeTag len) s = .next (u.failureEntry e)
    ∧ (len = s.work.wbufLen → exec .tagPrepareEnc s = .next (u.failureEntry e)) := by
  refine ⟨by rw [exec_computeTag, h]; rfl, ?_⟩
  rintro rfl
  rw [exec_tagPrepareEnc, h]
  rfl

theorem exec_tagVerify_of_raised {e : CcmError} {u : State} (hpad : s.paddingFits)
    (h : computeTag s.work.wbufLen s.zeroPadding = .raised e u) : exec .tagVerify s = .next (u.failureEntry e) := by
  rw [exec_tagVerify hpad, h]
  rfl

theorem exec_tagVerify_of_stuck {u : State} (hpad : s.paddingFits)
    (h : computeTag s.work.wbufLen s.zeroPadding = .stuck u) : exec .tagVerify s = .next u.hang := by
  rw [exec_tagVerify hpad, h]
  rfl

/-- A raise of cbc_mac, in the call and in the function and the phase that make it (R264). -/
theorem exec_of_requestMac_raised {e : CcmError} {u : State} (h : requestMac len s = .raised e u) :
    exec (.cbcMac len) s = .next (u.failureEntry e) ∧ exec (.computeTag len) s = .next (u.failureEntry e)
    ∧ (len = s.work.wbufLen → exec .tagPrepareEnc s = .next (u.failureEntry e)) :=
  ⟨by rw [exec_cbcMac, h]; rfl, exec_of_computeTag_raised (computeTag_of_raised h)⟩

/-- A cbc_mac that never returns, in the call and in the function and the phase that make it (R219). -/
theorem exec_of_requestMac_stuck {u : State} (h : requestMac len s = .stuck u) :
    exec (.cbcMac len) s = .next u.hang ∧ exec (.computeTag len) s = .next u.hang
    ∧ (len = s.work.wbufLen → exec .tagPrepareEnc s = .next u.hang) := by
  refine ⟨by rw [exec_cbcMac, h]; rfl, by rw [exec_computeTag, computeTag_of_stuck h]; rfl, ?_⟩
  rintro rfl
  rw [exec_tagPrepareEnc, computeTag_of_stuck h]
  rfl

end

/-! ### keyslot_erase -/

theorem exec_keyslotErase (s : State) : exec .keyslotErase s = (requestErase s).finish (fun _ s => s) := rfl

theorem requestErase_noReturn {s : State} (h : s.nextAnswer s.eraseCall = .noReturn) :
    requestErase s = .stuck (s.issue s.eraseCall) := by
  simp only [requestErase, h]

/-- ERR after keyslot_erase: a failure is recorded where no error stands (R263). -/
def State.errAfterErase (s : State) : Option CcmError :=
  if s.result.err = none ∧ s.nextAnswer s.eraseCall = .fail then some .engineFailure else s.result.err

/-- An erase that returns issues its call and settles ERR, and writes nothing else (R263). -/
theorem requestErase_returns {s : State} (h : s.nextAnswer s.eraseCall ≠ .noReturn) :
    requestErase s = .value () { s.issue s.eraseCall with result := { s.result with err := s.errAfterErase } } := by
  unfold requestErase State.errAfterErase
  cases ha : s.nextAnswer s.eraseCall with
  | noReturn => exact absurd ha h
  | ok b d =>
    rw [if_neg (by simp)]
    rfl
  | fail =>
    cases s.result.err with
    | none => rfl
    | some e => simp

/-! ### The statements about the calls -/

/-- Settles O34. The answer goes to S0, and the environment logs the call. -/
theorem ecbCallWritesS0 : Obligations.EcbCallWritesS0 := by
  intro s out d h
  rw [exec_ecbEncryptBlock, requestEcb_ok h]
  rfl

/-- Settles O35: an answer of the call's length is stored as it came. -/
theorem ctrCallWritesRegion : Obligations.CtrCallWritesRegion := by
  refine ⟨fun off len s c ctr d h16 hpos hb hc h hd => ?_, fun off s => rfl⟩
  subst hc
  have hlen : len ≠ 0 := ne_zero_of_toNat (by omega)
  have hok := requestCtr_ok h16 hb h
  refine ⟨(s.issue (s.ctrCall off len)).storeCtr off len ctr d, ?_, ?_, rfl, get_storeCtr (s := s.issue _) hd⟩
  · rw [exec_ctrEncrypt hlen, hok, Run.finish_value]
  · rw [exec_cipherPayloadFn hlen, hok, Run.finish_value]

/-- Settles O36: the MAC is returned whole by the call, cut to TAG_LEN by COMPUTE_TAG. -/
theorem macCallReturnsTag : Obligations.MacCallReturnsTag := by
  intro len s c mac d h16 hl hb hc h
  subst hc
  refine ⟨by rw [exec_cbcMac, requestMac_ok h16 hl hb h]; rfl, fun ht => ?_⟩
  rw [exec_computeTag, computeTag_ok h16 hl hb ht h]
  rfl

/-- Settles O37: of the three answers only `fail` can touch ERR. -/
theorem eraseCallRecordsFailure : Obligations.EraseCallRecordsFailure := by
  intro s c hc
  subst hc
  refine ⟨fun b d h => ?_, fun h => ?_⟩
  all_goals
    rw [exec_keyslotErase, requestErase_returns (by rw [h]; nofun), State.errAfterErase, h]
    simp [State.issue]

/-- Settles O23: the length check comes before the call is issued, wherever the call is made. -/
theorem misalignedLengthIsBadState : Obligations.MisalignedLengthIsBadState := by
  intro off len s
  refine ⟨fun h16 => ?_, fun hbad => ?_⟩
  · have hlen : len ≠ 0 := by
      rintro rfl
      exact h16 rfl
    obtain ⟨hcall, hfn, -⟩ := exec_of_requestCtr_raised hlen (requestCtr_badState (off := off) (s := s) (.inl h16))
    obtain ⟨-, -, hphase⟩ :=
      exec_of_requestCtr_raised hlen (requestCtr_badState (off := s.work.payloadOffset) (s := s) (.inl h16))
    exact ⟨hcall, hfn, hphase rfl⟩
  · have hbad' : ∀ u : State, len.toNat % 16 ≠ 0 ∨ len.toNat < 16 ∨ u.cap < len.toNat := fun u => by omega
    obtain ⟨hcall, hfn, hphase⟩ := exec_of_requestMac_raised (requestMac_badState (hbad' s))
    refine ⟨hcall, hfn, fun hlen => ⟨hphase hlen, fun hpad => ?_⟩⟩
    exact exec_tagVerify_of_raised hpad (hlen ▸ computeTag_of_raised (requestMac_badState (hbad' s.zeroPadding)))

end Sys2Proof.Machine
end

section
/-! The phase steps around the tag and the payload (R204 to R208, R210) and CLEANUP (R211 to R214): what each does on its
domain, and what it raises outside it (entries 8 and 9). -/

namespace Sys2Proof.Machine

/-! ### TAG_PREPARE -/

/-- A tag register after a tag of n bytes: its bytes, and the zero tail (R44). -/
theorem getD_fit_take (l : List Byte) (n : Nat) {i : Nat} (hi : i < 16) :
    (fit 16 (l.take n)).toList.getD i 0 = if i < n then l.getD i 0 else 0 := by
  rw [toList_fit, getD_fitBytes, if_pos hi, getD_take]

theorem exec_tagPrepareEnc_ok {s : State} {mac : Block} {d : List Byte} (h16 : s.work.wbufLen.toNat % 16 = 0)
    (hl : 16 ≤ s.work.wbufLen.toNat) (hb : s.work.wbufLen.toNat ≤ s.cap) (ht : s.host.tagLen.toNat ≤ 16)
    (h : s.nextAnswer (s.macCall s.work.wbufLen) = .ok mac d) :
    exec .tagPrepareEnc s = .next
      (((s.issue (s.macCall s.work.wbufLen)).setRawTag (mac.toList.take s.host.tagLen.toNat)).goto .cipherPayload) := by
  rw [exec_tagPrepareEnc, computeTag_ok h16 hl hb ht h]
  rfl

/-- Settles O44: RAW_TAG is the cut MAC brought to 16 bytes. -/
theorem tagPrepareEncComputesRawTag : Obligations.TagPrepareEncComputesRawTag := by
  intro s c mac d h16 hl hb ht hc h
  subst hc
  exact ⟨_, exec_tagPrepareEnc_ok h16 hl hb ht h, rfl, fun i hi => getD_fit_take mac.toList _ hi⟩

theorem exec_tagPrepareDec {s : State} (ht : s.host.tagLen.toNat ≤ 16)
    (hb : s.host.tagLen = 0 ∨ s.work.payloadOffset.toNat + s.work.plen.toNat + s.host.tagLen.toNat ≤ s.cap) :
    exec .tagPrepareDec s = (closeFrame s.takeCandidate).thenGoto .cipherPayload := by
  show (unmaskCandidate s).thenGoto .cipherPayload = _
  have hspace : s.host.tagLen.toNat = 0 ∨ s.tagPos + s.host.tagLen.toNat ≤ s.capacity .wbuf :=
    hb.imp_left (congrArg BitVec.toNat)
  rw [unmaskCandidate, Run.tagFits_of_le s ht, Run.inSpace, Run.check_of s hspace]

/-- `WBUF_LEN` set to the end of the frame (R205). -/
def State.endFrame (s : State) : State :=
  { s with work := { s.work with wbufLen := s.work.payloadOffset + s.work.ppad } }

theorem closeFrame_ok {s : State} (h : s.work.payloadOffset.toNat + s.work.ppad.toNat < 2 ^ 32) :
    closeFrame s = .value () s.endFrame := Run.check_of s h

theorem closeFrame_badState {s : State} (h : 2 ^ 32 ≤ s.work.payloadOffset.toNat + s.work.ppad.toNat) :
    closeFrame s = .raised .badState s := Run.check_of_not s (by omega)

theorem exec_tagPrepareDec_ok {s : State} (ht : s.host.tagLen.toNat ≤ 16)
    (hb : s.host.tagLen = 0 ∨ s.work.payloadOffset.toNat + s.work.plen.toNat + s.host.tagLen.toNat ≤ s.cap)
    (hsum : s.work.payloadOffset.toNat + s.work.ppad.toNat < 2 ^ 32) :
    exec .tagPrepareDec s = .next (s.takeCandidate.endFrame.goto .cipherPayload) := by
  rw [exec_tagPrepareDec ht hb, closeFrame_ok (s := s.takeCandidate) hsum]
  rfl

theorem getD_candTag (s : State) {i : Nat} (hi : i < 16) :
    s.takeCandidate.work.candTag.toList.getD i 0 = if i < s.host.tagLen.toNat then
      s.work.wbuf.get (s.tagPos + i) ^^^ s.work.s0.toList.getD i 0 else 0 := by
  show (fit 16 (xorMask (s.work.wbuf.readBytes s.tagPos s.host.tagLen.toNat) s.work.s0 _)).toList.getD i 0 = _
  rw [toList_fit, getD_fitBytes, if_pos hi]
  by_cases hlt : i < s.host.tagLen.toNat
  · rw [getD_xorMask _ _ hlt, Memory.getD_readBytes, if_pos hlt, if_pos hlt]
  · rw [getD_of_length_le (by rw [length_xorMask]; omega), if_neg hlt]

/-- Settles O45: the candidate is read before its bytes are zeroed, and the end of the frame does not wrap. -/
theorem tagPrepareDecUnmasksTag : Obligations.TagPrepareDecUnmasksTag := by
  intro s ht hb hsum
  exact ⟨_, exec_tagPrepareDec_ok ht hb hsum, rfl, BitVec.toNat_add_of_lt hsum, fun i hi => getD_candTag s hi,
    Memory.get_zeroFill s.work.wbuf s.tagPos s.host.tagLen.toNat⟩

/-! ### CIPHER_PAYLOAD -/

theorem exec_cipherPayload_ok {s : State} {ctr : Block} {d : List Byte} (h16 : s.work.ppad.toNat % 16 = 0)
    (hpos : 0 < s.work.ppad.toNat) (hb : s.work.payloadOffset.toNat + s.work.ppad.toNat ≤ s.cap)
    (h : s.nextAnswer (s.ctrCall s.work.payloadOffset s.work.ppad) = .ok ctr d) :
    exec .cipherPayload s = .next (((s.issue (s.ctrCall s.work.payloadOffset s.work.ppad)).storeCtr
      s.work.payloadOffset s.work.ppad ctr d).goto s.afterCipher) := by
  rw [exec_cipherPayload (ne_zero_of_toNat (by omega)), requestCtr_ok h16 hb h]
  rfl

/-- Settles O46: PPAD = 0 takes the branch without a call, any other the call over the region. -/
theorem cipherPayloadEnciphersRegion : Obligations.CipherPayloadEnciphersRegion := by
  refine fun s => ⟨exec_cipherPayload_empty, fun c ctr d h16 hpos hb hc h hd => ?_⟩
  subst hc
  exact ⟨_, exec_cipherPayload_ok h16 hpos hb h, rfl, get_storeCtr (s := s.issue _) hd⟩

/-! ### TAG_VERIFY -/

/-- RAW_TAG and VERIFY_OK as TAG_VERIFY leaves them (R208). -/
def State.settled (t : List Byte) (ok : Bool) (s : State) : State :=
  { s with work := { s.work with rawTag := fit 16 t, verifyOk := ok } }

section
variable {s : State} {t : List Byte}

theorem verifyTags_candTag_iff (ht : s.host.tagLen.toNat ≤ 16) (hl : t.length = s.host.tagLen.toNat) :
    verifyTags (s.work.candTag.toList.take s.host.tagLen.toNat) t s.host.tagLen.toNat = true
      ↔ s.work.candTag.toList.take s.host.tagLen.toNat = t :=
  verifyTags_iff (by rw [List.length_take, Vector.length_toList, Nat.min_eq_left ht]) hl

theorem settleTag_of_eq (ht : s.host.tagLen.toNat ≤ 16) (hl : t.length = s.host.tagLen.toNat)
    (heq : s.work.candTag.toList.take s.host.tagLen.toNat = t) : settleTag t s = .value () (s.settled t true) := by
  rw [settleTag, (verifyTags_candTag_iff ht hl).mpr heq]
  rfl

theorem settleTag_of_ne (ht : s.host.tagLen.toNat ≤ 16) (hl : t.length = s.host.tagLen.toNat)
    (hne : s.work.candTag.toList.take s.host.tagLen.toNat ≠ t) :
    settleTag t s = .raised .authenticationFailed (s.settled t false) := by
  rw [settleTag, Bool.eq_false_iff.mpr (mt (verifyTags_candTag_iff ht hl).mp hne)]
  rfl

end

/-- The first TAG_LEN bytes of a MAC. -/
abbrev State.cut (s : State) (mac : Block) : List Byte := mac.toList.take s.host.tagLen.toNat

theorem exec_tagVerify_ok {s : State} {mac : Block} {d : List Byte} (hpad : s.paddingFits)
    (h16 : s.work.wbufLen.toNat % 16 = 0) (hl : 16 ≤ s.work.wbufLen.toNat) (hb : s.work.wbufLen.toNat ≤ s.cap)
    (ht : s.host.tagLen.toNat ≤ 16)
    (h : s.zeroPadding.nextAnswer (s.zeroPadding.macCall s.work.wbufLen) = .ok mac d) :
    exec .tagVerify s = .next (if s.work.candTag.toList.take s.host.tagLen.toNat = s.cut mac
      then ((s.zeroPadding.issue (s.zeroPadding.macCall s.work.wbufLen)).settled (s.cut mac) true).goto .emitResult
      else ((s.zeroPadding.issue (s.zeroPadding.macCall s.work.wbufLen)).settled (s.cut mac) false).failureEntry
        .authenticationFailed) := by
  have hcut : (s.cut mac).length = s.host.tagLen.toNat := by
    rw [List.length_take, Vector.length_toList, Nat.min_eq_left ht]
  have htag : computeTag s.work.wbufLen s.zeroPadding
      = .value (s.cut mac) (s.zeroPadding.issue (s.zeroPadding.macCall s.work.wbufLen)) :=
    computeTag_ok (s := s.zeroPadding) h16 hl hb ht h
  rw [exec_tagVerify hpad, htag, Run.bind_value]
  by_cases heq : s.work.candTag.toList.take s.host.tagLen.toNat = s.cut mac
  · rw [if_pos heq, settleTag_of_eq (s := s.zeroPadding.issue _) ht hcut heq]
    rfl
  · rw [if_neg heq, settleTag_of_ne (s := s.zeroPadding.issue _) ht hcut heq]
    rfl

/-- WBUF with the padding zeroed, byte by byte. -/
theorem get_zeroPadding {s : State} (hle : s.work.plen.toNat ≤ s.work.ppad.toNat) (a : Nat) :
    s.zeroPadding.work.wbuf.get a = if s.work.payloadOffset.toNat + s.work.plen.toNat ≤ a
      ∧ a < s.work.payloadOffset.toNat + s.work.ppad.toNat then 0 else s.work.wbuf.get a := by
  rw [zeroWbuf_work, Memory.get_zeroFill, Nat.add_assoc, Nat.add_sub_cancel' hle]

/-- Settles O48: the verdict is the equality of the two cut tags; only ERR and PHASE depend on it besides VERIFY_OK. -/
theorem tagVerifyComparesTags : Obligations.TagVerifyComparesTags := by
  intro s u c mac d hpad h16 hl hb ht hu hc h
  subst hu hc
  refine ⟨get_zeroPadding hpad.1, _, exec_tagVerify_ok hpad h16 hl hb ht h, ?_⟩
  by_cases heq : s.work.candTag.toList.take s.host.tagLen.toNat = s.cut mac
  · rw [if_pos heq]
    exact ⟨fun i hi => getD_fit_take mac.toList _ hi, fun _ => rfl, fun hne => absurd heq hne⟩
  · rw [if_neg heq, failureEntry_eq]
    exact ⟨fun i hi => getD_fit_take mac.toList _ hi, fun h => absurd h heq, fun _ => rfl⟩

/-! ### EMIT_RESULT, decrypt arm -/

theorem exec_emitResultDec {s : State}
    (hwbuf : s.work.plen = 0 ∨ s.work.payloadOffset.toNat + s.work.plen.toNat ≤ s.cap) :
    exec .emitResultDec s = .next ((s.emit s.payloadBytes s.work.plen).goto .cleanup) := by
  have hout : s.work.plen.toNat = 0 ∨ 0 + s.work.plen.toNat ≤ s.capacity .out := by
    refine hwbuf.imp (congrArg BitVec.toNat) fun h => ?_
    show _ ≤ s.cap
    omega
  show execEmitResultDec s = _
  rw [execEmitResultDec, inSpace_payload hwbuf, Run.inSpace, Run.check_of s hout]
  rfl

/-- Settles O50: one emission of the payload bytes. -/
theorem emitResultDecWritesPlaintext : Obligations.EmitResultDecWritesPlaintext := by
  refine fun s hwbuf => ⟨_, exec_emitResultDec hwbuf, rfl, fun a => ?_⟩
  show (s.result.out.writeBytes 0 s.payloadBytes).get a = _
  rw [Memory.get_writeBytes, length_payloadBytes, Nat.zero_add, Nat.sub_zero]
  by_cases ha : a < s.work.plen.toNat
  · rw [if_pos ⟨Nat.zero_le a, ha⟩, if_pos ha, State.payloadBytes, Memory.getD_readBytes, if_pos ha]
  · rw [if_neg (fun h => ha h.2), if_neg ha]

/-! ### CLEANUP -/

/-- Parts 2 to 4 of CLEANUP (R212 to R214). -/
def State.concluded (s : State) : State := s.zeroize.withdrawOnError.endCommand

theorem exec_cleanup (s : State) : exec .cleanup s = (releaseKey s).finish (fun _ s => s.concluded) := rfl

theorem concluded_of_success {s : State} (h : s.result.err = none) : s.concluded = s.zeroize.endCommand := by
  rw [State.concluded, State.withdrawOnError, if_pos (show s.zeroize.result.err = none from h)]

theorem concluded_of_failure {s : State} (h : s.result.err ≠ none) :
    s.concluded = State.endCommand { s.zeroize with
      result := { s.result with out := s.result.out.zeroFill 0 s.cap, outLen := 0 } } := by
  rw [State.concluded, State.withdrawOnError, if_neg (show ¬ s.zeroize.result.err = none from h)]
  rfl

/-- Part 1 makes its call exactly where the key was used and is not kept (R211). -/
theorem releaseKey_skip {s : State} (h : s.work.keyUsed = false ∨ s.keepKey = true) : releaseKey s = .value () s :=
  if_neg (by rintro ⟨hused, hkeep⟩; simp [hused, hkeep] at h)

theorem releaseKey_erase {s : State} (hused : s.work.keyUsed = true) (hkeep : s.keepKey = false) :
    releaseKey s = requestErase s := if_pos ⟨hused, hkeep⟩

/-- The state after part 1 where the erase, if there is one to make, returns (R211, R263). -/
def State.released (s : State) : State :=
  { s with
    env := if s.work.keyUsed = true ∧ s.keepKey = false then (s.issue s.eraseCall).env else s.env
    result := { s.result with
      err := if s.result.err = none ∧ s.work.keyUsed = true ∧ s.keepKey = false ∧ s.nextAnswer s.eraseCall = .fail
        then some .engineFailure else s.result.err } }

theorem releaseKey_returns {s : State}
    (h : (s.work.keyUsed = false ∨ s.keepKey = true) ∨ s.nextAnswer s.eraseCall ≠ .noReturn) :
    releaseKey s = .value () s.released := by
  unfold State.released
  by_cases herase : s.work.keyUsed = true ∧ s.keepKey = false
  · obtain ⟨hused, hkeep⟩ := herase
    have hreturns := h.resolve_left (by simp [hused, hkeep])
    rw [releaseKey_erase hused hkeep, requestErase_returns hreturns, State.errAfterErase]
    simp only [hused, hkeep, true_and, and_self, if_true]
    rfl
  · have hskip : s.work.keyUsed = false ∨ s.keepKey = true := by
      rwa [not_and_or, Bool.not_eq_true, Bool.not_eq_false] at herase
    rw [releaseKey_skip hskip, if_neg herase, if_neg fun ⟨_, hused, hkeep, _⟩ => herase ⟨hused, hkeep⟩]

theorem exec_cleanup_returns {s : State}
    (h : (s.work.keyUsed = false ∨ s.keepKey = true) ∨ s.nextAnswer s.eraseCall ≠ .noReturn) :
    exec .cleanup s = .next s.released.concluded := by
  rw [exec_cleanup, releaseKey_returns h, Run.finish_value]

theorem get_zeroFill_below (m : Memory) (n a : Nat) : (m.zeroFill 0 n).get a = if a < n then 0 else m.get a := by
  rw [Memory.get_zeroFill]
  simp

/-- Settles O51: whether the command has failed is decided by the erase, before the output is withdrawn. -/
theorem cleanupEndsCommand : Obligations.CleanupEndsCommand := by
  intro s c hc hreturns
  subst hc
  refine ⟨_, exec_cleanup_returns hreturns, ?_⟩
  by_cases hfail : s.released.result.err = none
  · rw [concluded_of_success hfail]
    exact ⟨rfl, rfl, get_zeroFill_below s.work.wbuf s.cap, fun _ => ⟨rfl, rfl⟩, fun h => absurd hfail h⟩
  · rw [concluded_of_failure hfail]
    exact ⟨rfl, rfl, get_zeroFill_below s.work.wbuf s.cap, fun h => absurd h hfail,
      fun _ => ⟨rfl, get_zeroFill_below s.result.out s.cap⟩⟩

/-! ### Outside the domains -/

theorem encodeCtr0Flags_of_illegal {n : Word} (h : n.toNat < 7 ∨ 13 < n.toNat) : encodeCtr0Flags n = none := by
  refine if_neg ?_
  rw [legalNonceLen_iff]
  omega

theorem exec_encCtr0Flags_none {n : Word} (s : State) (h : encodeCtr0Flags n = none) :
    exec (.encCtr0Flags n) s = .fault (.outsideDomain "ENC_CTR0_FLAGS") := by
  show execEncCtr0Flags n s = _
  rw [execEncCtr0Flags, h]
  rfl

theorem exec_encCtr0_none {n : Word} (nonce : NonceBytes) (s : State) (h : encodeCtr0Flags n = none) :
    exec (.encCtr0 nonce n) s = .fault (.outsideDomain "ENC_CTR0") := by
  show execEncCtr0 nonce n s = _
  simp only [execEncCtr0, encodeCtr0, h]
  rfl

theorem exec_ctrM_none {nonce : NonceBytes} {n : Word} {m : Nat} (s : State) (h : encodeCtrM nonce n m = none) :
    exec (.ctrM nonce n m) s = .fault (.outsideDomain "CTR_M") := by
  show execCtrM nonce n m s = _
  rw [execCtrM, h]
  rfl

theorem encodeCtrM_of_illegal (nonce : NonceBytes) {n : Word} (m : Nat) (h : encodeCtr0Flags n = none) :
    encodeCtrM nonce n m = none := by
  simp only [encodeCtrM, h]

theorem encodeCtrM_of_le (nonce : NonceBytes) {n : Word} {m : Nat} (h : 2 ^ (8 * (15 - n.toNat)) ≤ m) :
    encodeCtrM nonce n m = none := by
  rw [two_pow_eight_mul] at h
  unfold encodeCtrM
  split
  · exact if_neg (by omega)
  · rfl

theorem exec_xorMask_outside {tag : List Byte} {n : Word} (s0 : Block) (s : State) (h : tag.length ≠ n.toNat ∨ 16 < n.toNat) :
    exec (.xorMask tag s0 n) s = .fault (.outsideDomain "XOR_MASK") := by
  show execXorMask tag s0 n s = _
  rw [execXorMask, if_neg (by omega)]
  rfl

theorem exec_verify_outside {cand exp : List Byte} {n : Word} (s : State)
    (h : cand.length ≠ n.toNat ∨ exp.length ≠ n.toNat) :
    exec (.verify cand exp n) s = .fault (.outsideDomain "VERIFY") := by
  show execVerify cand exp n s = _
  rw [execVerify, if_neg (by tauto)]
  rfl

theorem exec_tagPrepareDec_long_tag {s : State} (h : 16 < s.host.tagLen.toNat) :
    exec .tagPrepareDec s = .next (s.failureEntry .badState) := by
  show (unmaskCandidate s).thenGoto .cipherPayload = _
  rw [unmaskCandidate, Run.tagFits_of_lt s h]
  rfl

theorem exec_tagPrepareDec_outside {s : State} (ht : s.host.tagLen.toNat ≤ 16) (hpos : 0 < s.host.tagLen.toNat)
    (hout : s.cap < s.work.payloadOffset.toNat + s.work.plen.toNat + s.host.tagLen.toNat) :
    exec .tagPrepareDec s = .next (s.failureEntry .badState) := by
  show (unmaskCandidate s).thenGoto .cipherPayload = _
  rw [unmaskCandidate, Run.tagFits_of_le s ht, Run.inSpace_of_lt s (sp := .wbuf) (o := s.tagPos) hpos hout]
  rfl

theorem exec_tagFinalize_long_tag {s : State} (h : 16 < s.host.tagLen.toNat) :
    exec .tagFinalize s = .next (s.failureEntry .badState) := by
  show execTagFinalize s = _
  rw [execTagFinalize, Run.tagFits_of_lt s h]
  rfl

theorem exec_emitResultEnc_long_tag {s : State} (h : 16 < s.host.tagLen.toNat) :
    exec .emitResultEnc s = .next (s.failureEntry .badState) := by
  show execEmitResultEnc s = _
  rw [execEmitResultEnc, Run.tagFits_of_lt s h]
  rfl

/-- A payload region that leaves WBUF is found by both arms of EMIT_RESULT. -/
theorem exec_emitResult_outside_wbuf {s : State} (hpos : 0 < s.work.plen.toNat)
    (hout : s.cap < s.work.payloadOffset.toNat + s.work.plen.toNat) :
    (s.host.tagLen.toNat ≤ 16 → exec .emitResultEnc s = .next (s.failureEntry .badState))
    ∧ exec .emitResultDec s = .next (s.failureEntry .badState) := by
  refine ⟨fun ht => ?_, ?_⟩
  · show execEmitResultEnc s = _
    rw [execEmitResultEnc, Run.tagFits_of_le s ht, Run.inSpace_of_lt s (sp := .wbuf) hpos hout]
    rfl
  · show execEmitResultDec s = _
    rw [execEmitResultDec, Run.inSpace_of_lt s (sp := .wbuf) hpos hout]
    rfl

theorem exec_emitResultEnc_outside_out {s : State} (ht : s.host.tagLen.toNat ≤ 16)
    (hwbuf : s.work.plen = 0 ∨ s.work.payloadOffset.toNat + s.work.plen.toNat ≤ s.cap)
    (hout : s.cap < s.work.plen.toNat + s.host.tagLen.toNat) :
    exec .emitResultEnc s = .next (s.failureEntry .badState) := by
  have hspace : s.capacity .out < 0 + (s.work.plen.toNat + s.host.tagLen.toNat) := by
    show s.cap < _
    omega
  show execEmitResultEnc s = _
  rw [execEmitResultEnc, Run.tagFits_of_le s ht, inSpace_payload hwbuf, Run.inSpace_of_lt s (by omega) hspace]
  rfl

/-- A padding that is negative or leaves WBUF is found before it is zeroed. -/
theorem exec_tagVerify_outside {s : State} (h : s.work.ppad.toNat < s.work.plen.toNat
      ∨ (s.work.plen.toNat < s.work.ppad.toNat ∧ s.cap < s.work.payloadOffset.toNat + s.work.ppad.toNat)) :
    exec .tagVerify s = .next (s.failureEntry .badState) := by
  show (checkTag s).thenGoto .emitResult = _
  rcases h with hneg | ⟨hpos, hout⟩
  · rw [checkTag, Run.check_of_not s (by omega)]
    rfl
  · have hspace : s.capacity .wbuf < s.tagPos + (s.work.ppad.toNat - s.work.plen.toNat) := by
      show s.cap < s.work.payloadOffset.toNat + s.work.plen.toNat + _
      omega
    rw [checkTag, Run.check_of s (by omega), Run.inSpace_of_lt s (by omega) hspace]
    rfl

/-- Settles O24: function rows fault through their domain tests, phase and call rows raise at the check they fail. -/
theorem outsideDomainFaultOrBadState : Obligations.OutsideDomainFaultOrBadState := by
  refine ⟨fun nonce n m s hn => ?nonceLen, fun nonce n m s hm => exec_ctrM_none s (encodeCtrM_of_le nonce hm),
    fun tag s0 n s h => exec_xorMask_outside s0 s h, fun cand exp n s h => exec_verify_outside s h, fun off s => rfl,
    fun off len s h16 hpos hout => ?region, fun len s h16 hout => ?macRegion,
    fun s h => ⟨exec_tagPrepareDec_long_tag h, exec_tagFinalize_long_tag h, exec_emitResultEnc_long_tag h⟩,
    fun len s c mac d ht h16 hl hb => ?longTag, fun s hpos ht hout => exec_tagPrepareDec_outside ht hpos hout,
    fun s ht hb hsum => ?frameEnd, fun s hpos hout => exec_emitResult_outside_wbuf hpos hout,
    fun s ht hwbuf hout => exec_emitResultEnc_outside_out ht hwbuf hout, fun s h => exec_tagVerify_outside h⟩
  case nonceLen =>
    have hnone := encodeCtr0Flags_of_illegal hn
    exact ⟨exec_encCtr0Flags_none s hnone, exec_encCtr0_none nonce s hnone,
      exec_ctrM_none s (encodeCtrM_of_illegal nonce m hnone)⟩
  case region =>
    exact exec_of_requestCtr_raised (ne_zero_of_toNat (by omega)) (requestCtr_badState (.inr ⟨hpos, hout⟩))
  case macRegion =>
    obtain ⟨hcall, hfn, hphase⟩ := exec_of_requestMac_raised (requestMac_badState (s := s) (.inr (.inr hout)))
    refine ⟨hcall, hfn, fun hlen => ⟨hphase hlen, fun hpad => ?_⟩⟩
    exact exec_tagVerify_of_raised hpad
      (hlen ▸ computeTag_of_raised (requestMac_badState (s := s.zeroPadding) (.inr (.inr hout))))
  case longTag =>
    refine ⟨fun hc h => ?_, fun hc h hpad hlen => ?_⟩
    · subst hc
      exact exec_of_computeTag_raised (computeTag_of_long_tag h16 hl hb ht h)
    · subst hc hlen
      exact exec_tagVerify_of_raised hpad (computeTag_of_long_tag (s := s.zeroPadding) h16 hl hb ht h)
  case frameEnd =>
    refine ⟨s.takeCandidate.work, rfl, ?_⟩
    rw [exec_tagPrepareDec ht hb, closeFrame_badState (s := s.takeCandidate) hsum]
    rfl

end Sys2Proof.Machine
end

section
/-! COMPOSE as a whole (R160 to R166): with legal parameters it lays out the frame and then makes its call, or is TooBig
before the call; the phase COMPOSE_FRAME is COMPOSE with a successor (R202). -/

namespace Sys2Proof.Machine

/-! ### The message of a state and its frame -/

/-- The message of the running command: PLEN bytes of IN under the host's parameters. -/
abbrev State.msg (s : State) : Message := s.message s.work.plen.toNat

/-- The parameters ENC_B0 accepts for the running command (R140). -/
abbrev State.frameable (s : State) : Prop :=
  Sys2Proof.Machine.frameable s.host.nonceLen s.host.tagLen s.work.plen

theorem frameable_of {s : State} (ht : s.host.tagLen.toNat ∈ [4, 6, 8, 10, 12, 14, 16]) (hn7 : 7 ≤ s.host.nonceLen.toNat)
    (hn13 : s.host.nonceLen.toNat ≤ 13) (hp : s.work.plen.toNat < 2 ^ (8 * (15 - s.host.nonceLen.toNat))) :
    s.frameable :=
  ⟨(legalTagLen_iff _).mpr ht, (legalNonceLen_iff _).mpr ⟨hn7, hn13⟩, (lengthFits_iff _ _).mpr hp⟩

/-- What COMPOSE puts behind the header: the padded payload, on decrypt the whole input as it came (R163, R164). -/
def State.frameTail (s : State) : List Byte :=
  if s.isEnc then padTo16 s.msg.payload else s.host.inp.readBytes 0 s.host.inputLen.toNat

/-- The frame fits CAP, on decrypt the whole input too (R162 to R164). -/
abbrev State.fits (s : State) : Prop :=
  s.msg.frame.length ≤ s.cap ∧ (s.isEnc = false → s.msg.header.length + s.host.inputLen.toNat ≤ s.cap)

theorem not_fits_of_lt {s : State}
    (h : s.cap < s.msg.frame.length ∨ (s.isEnc = false ∧ s.cap < s.msg.header.length + s.host.inputLen.toNat)) :
    ¬ s.fits := by
  rintro ⟨hframe, hinput⟩
  rcases h with hbig | ⟨hdec, hbig⟩
  · exact absurd hframe (Nat.not_le.mpr hbig)
  · exact absurd (hinput hdec) (Nat.not_le.mpr hbig)

theorem ofNat_length_readBytes (m : Memory) (x k : Nat) (n : BitVec k) :
    BitVec.ofNat k (m.readBytes x n.toNat).length = n := by
  rw [Memory.length_readBytes, BitVec.ofNat_toNat, BitVec.setWidth_eq]

theorem msg_b0 {s : State} {b0 : Block}
    (h : encodeB0 s.nonceBytes s.host.nonceLen s.host.tagLen s.host.aadLen s.work.plen = .ok b0) :
    s.msg.b0 = some b0 := by
  show (encodeB0 s.nonceBytes s.host.nonceLen s.host.tagLen
    (BitVec.ofNat 64 (s.host.aad.readBytes 0 s.host.aadLen.toNat).length)
    (BitVec.ofNat 32 (s.host.inp.readBytes 0 s.work.plen.toNat).length)).toOption = _
  rw [ofNat_length_readBytes, ofNat_length_readBytes, h]
  rfl

theorem msg_aadRegion (s : State) : s.msg.aadRegion
    = padTo16 ((encodeAadLen s.host.aadLen).1 ++ s.host.aad.readBytes 0 s.host.aadLen.toNat) := by
  show padTo16 ((encodeAadLen (BitVec.ofNat 64 (s.host.aad.readBytes 0 s.host.aadLen.toNat).length)).1 ++ _) = _
  rw [ofNat_length_readBytes]
  rfl

theorem length_header (m : Message) : m.header.length = 16 + m.aadRegion.length := by
  rw [Message.header, List.length_append, Vector.length_toList]

theorem length_frame (m : Message) : m.frame.length = m.header.length + (padTo16 m.payload).length := by
  rw [Message.frame, List.length_append]

/-! ### Steps 1 to 3 -/

/-- What COMPOSE leaves in the working registers before its call: the frame from offset 0, the layout registers, and
nothing else changed. -/
structure FrameWritten (s : State) (w : Working) : Prop where
  rest : w = { s.work with
    wbuf := w.wbuf, aadPaddedLen := w.aadPaddedLen, payloadOffset := w.payloadOffset, ppad := w.ppad, wbufLen := w.wbufLen }
  aadPaddedLen : w.aadPaddedLen.toNat = s.msg.aadRegion.length
  payloadOffset : w.payloadOffset.toNat = s.msg.header.length
  ppad : w.ppad.toNat = (padTo16 s.msg.payload).length
  wbufLen : w.wbufLen.toNat = (s.msg.header ++ s.frameTail).length
  bytes : ∀ a, w.wbuf.get a =
    if a < (s.msg.header ++ s.frameTail).length then (s.msg.header ++ s.frameTail).getD a 0 else s.work.wbuf.get a
  ok : s.work.wbuf.ok s.cap → w.wbuf.ok s.cap

/-- Step 3 on either path (R163, R164). -/
theorem composePayload_cases (s : State) :
    (16 + s.work.aadPaddedLen.toNat + (padTo16 s.msg.payload).length ≤ s.cap
        ∧ (s.isEnc = false → 16 + s.work.aadPaddedLen.toNat + s.host.inputLen.toNat ≤ s.cap)
        ∧ ∃ u, (if s.isEnc then composePlaintext s else composeCiphertext s) = .value () u
          ∧ PayloadWritten s u s.frameTail)
    ∨ ((s.cap < 16 + s.work.aadPaddedLen.toNat + (padTo16 s.msg.payload).length
        ∨ (s.isEnc = false ∧ s.cap < 16 + s.work.aadPaddedLen.toNat + s.host.inputLen.toNat))
      ∧ (if s.isEnc then composePlaintext s else composeCiphertext s) = .raised .tooBig s) := by
  unfold State.frameTail
  cases henc : s.isEnc with
  | true =>
    obtain ⟨hfit, u, hu, hw⟩ | ⟨hbig, hraise⟩ := composePlaintext_cases s (p := s.msg.payload) rfl
    · exact .inl ⟨hfit, nofun, u, hu, hw⟩
    · exact .inr ⟨.inl hbig, hraise⟩
  | false =>
    obtain ⟨hinput, hfit, u, hu, hw⟩ | ⟨hbig, hraise⟩ := composeCiphertext_cases s (p := s.msg.payload) rfl
    · exact .inl ⟨hfit, fun _ => hinput, u, hu, hw⟩
    · exact .inr ⟨hbig.symm.imp_right fun h => ⟨rfl, h⟩, hraise⟩

/-- B0, the AAD region and the payload bytes one after the other, as one read. -/
theorem get_threeParts {m0 m1 m2 m3 : Memory} {b r p : List Byte} (hb : b.length = 16)
    (h1 : m1 = m0.writeBytes 0 b)
    (h2 : ∀ a, m2.get a = if 16 ≤ a ∧ a < 16 + r.length then r.getD (a - 16) 0 else m1.get a)
    (h3 : ∀ a, m3.get a = if 16 + r.length ≤ a ∧ a < 16 + r.length + p.length then p.getD (a - (16 + r.length)) 0
      else m2.get a) (a : Nat) :
    m3.get a = if a < (b ++ r ++ p).length then (b ++ r ++ p).getD a 0 else m0.get a := by
  simp only [List.length_append, getD_append', hb]
  rw [h3]
  by_cases hend : a < 16 + r.length + p.length
  · rw [if_pos hend]
    by_cases hp : a < 16 + r.length
    · rw [if_neg (by omega), if_pos hp, h2]
      by_cases hr : a < 16
      · rw [if_neg (by omega), if_pos hr, h1, Memory.get_writeBytes, hb, if_pos (by omega), Nat.sub_zero]
      · rw [if_pos (by omega), if_neg hr]
    · rw [if_pos (by omega), if_neg hp]
  · rw [if_neg (by omega), if_neg hend, h2, if_neg (by omega), h1, Memory.get_writeBytes, hb, if_neg (by omega)]

/-- COMPOSE with legal parameters: the frame is laid out and the call is what is left, or it is TooBig with only WBUF and
AAD_PADDED_LEN written. -/
theorem composeSteps_cases {s : State} (hf : s.frameable) :
    (s.fits ∧ ∃ w, FrameWritten s w ∧ composeSteps s = composeCounter { s with work := w })
    ∨ ((s.cap < s.msg.frame.length ∨ (s.isEnc = false ∧ s.cap < s.msg.header.length + s.host.inputLen.toNat))
      ∧ ∃ w : Working, composeSteps s = .raised .tooBig { s with work := w }
        ∧ w = { s.work with wbuf := w.wbuf, aadPaddedLen := w.aadPaddedLen }
        ∧ (s.work.wbuf.ok s.cap → w.wbuf.ok s.cap)) := by
  obtain ⟨b0, hb0⟩ := encodeB0_ok s.nonceBytes s.host.aadLen hf
  have hb0len : b0.toList.length = 16 := Vector.length_toList
  have hcap := cap_bounds s
  have hheader : s.msg.header = b0.toList ++ s.msg.aadRegion := by
    rw [Message.header, msg_b0 hb0]
    rfl
  have hok1 : s.work.wbuf.ok s.cap → (s.writeWbuf 0 b0.toList).work.wbuf.ok s.cap := fun h =>
    Memory.writeBytes_ok _ _ _ _ h (by omega)
  rw [State.fits, length_frame, length_header]
  unfold composeSteps
  rw [composeB0_value hb0, Run.bind_value]
  obtain ⟨hfitA, u, h2, hA⟩ | ⟨hbigA, hraiseA⟩ := composeAad_cases (s.writeWbuf 0 b0.toList) (msg_aadRegion s)
  · obtain ⟨m2, ap, rfl⟩ : ∃ m2 ap, u = { s with work := { s.work with wbuf := m2, aadPaddedLen := ap } } :=
      ⟨_, _, hA.rest⟩
    have hap : ap.toNat = s.msg.aadRegion.length := hA.len
    rw [h2, Run.bind_value, ← hap]
    obtain ⟨hfit, hinput, u, h3, hP⟩ | ⟨hbig, hraise⟩ :=
      composePayload_cases { s with work := { s.work with wbuf := m2, aadPaddedLen := ap } }
    · obtain ⟨m3, po, pp, wl, rfl⟩ : ∃ m3 po pp wl, u = { s with work := { s.work with
          wbuf := m3, aadPaddedLen := ap, payloadOffset := po, ppad := pp, wbufLen := wl } } := ⟨_, _, _, _, hP.rest⟩
      refine .inl ⟨⟨hfit, hinput⟩, { s.work with
        wbuf := m3, aadPaddedLen := ap, payloadOffset := po, ppad := pp, wbufLen := wl }, ?_, ?_⟩
      · refine ⟨rfl, hap, ?_, hP.ppad, ?_, fun a => ?_, fun h => hP.ok (hA.ok (hok1 h))⟩
        · rw [length_header, ← hap]
          exact hP.offset
        · rw [List.length_append, length_header, ← hap]
          exact hP.wbufLen
        · have hbytes := hP.bytes
          simp only [hap] at hbytes
          rw [hheader]
          exact get_threeParts hb0len rfl hA.bytes hbytes a
      · exact (congrArg (Run.bind · _) h3).trans rfl
    · exact .inr ⟨hbig, _, (congrArg (Run.bind · _) hraise).trans rfl, rfl, fun h => hA.ok (hok1 h)⟩
  · rw [hraiseA, Run.bind_raised]
    exact .inr ⟨.inl (by
      rw [writeWbuf_cap] at hbigA
      omega), _, rfl, rfl, hok1⟩

/-! ### Step 4 and its call -/

/-- The call of COMPOSE (R165). -/
abbrev State.composeCall (s : State) : Call := .ecbEncryptBlock s.host.keyCtx (s.msg.ctr 0)

/-- The working registers at the call of COMPOSE, once the frame has been laid out in w. -/
abbrev Working.atCall (w : Working) (m : Message) : Working := { w with keyUsed := true, ctr := m.ctr 0 }

/-- The working registers after COMPOSE, out the answer to its call. -/
abbrev Working.afterCall (w : Working) (m : Message) (out : Block) : Working :=
  { w with keyUsed := true, s0 := out, ctr := m.ctr 1 }

theorem FrameWritten.atComposeCall {s : State} {w : Working} (h : FrameWritten s w) :
    s.work.atComposeCall (w.atCall s.msg) s.msg :=
  congrArg (fun v => Working.atCall v s.msg) h.rest

section
variable {s : State} {w : Working}

theorem composeCounter_eq_of_written (hn : legalNonceLen s.host.nonceLen = true) :
    composeCounter { s with work := w } = match s.nextAnswer s.composeCall with
      | .ok out _ => .value () { s.issue s.composeCall with work := w.afterCall s.msg out }
      | .fail => .raised .engineFailure { s.issue s.composeCall with work := w.atCall s.msg }
      | .noReturn => .stuck { s.issue s.composeCall with work := w.atCall s.msg } :=
  composeCounter_eq (s := { s with work := w }) hn

theorem composeCounter_ok {out : Block} {d : List Byte} (hn : legalNonceLen s.host.nonceLen = true)
    (h : s.nextAnswer s.composeCall = .ok out d) :
    composeCounter { s with work := w } = .value () { s.issue s.composeCall with work := w.afterCall s.msg out } := by
  rw [composeCounter_eq_of_written hn, h]

theorem composeCounter_fail (hn : legalNonceLen s.host.nonceLen = true) (h : s.nextAnswer s.composeCall = .fail) :
    composeCounter { s with work := w }
      = .raised .engineFailure { s.issue s.composeCall with work := w.atCall s.msg } := by
  rw [composeCounter_eq_of_written hn, h]

theorem composeCounter_noReturn (hn : legalNonceLen s.host.nonceLen = true) (h : s.nextAnswer s.composeCall = .noReturn) :
    composeCounter { s with work := w } = .stuck { s.issue s.composeCall with work := w.atCall s.msg } := by
  rw [composeCounter_eq_of_written hn, h]

end

theorem composeSteps_of_fits {s : State} (hf : s.frameable) (hfit : s.fits) :
    ∃ w, FrameWritten s w ∧ composeSteps s = composeCounter { s with work := w } := by
  obtain ⟨-, hw⟩ | ⟨hbig, -⟩ := composeSteps_cases hf
  · exact hw
  · exact absurd hfit (not_fits_of_lt hbig)

theorem exec_compose (s : State) : exec .compose s = (composeSteps s).finish (fun _ s => s) := rfl

theorem exec_composeFrame (s : State) : exec .composeFrame s = (composeSteps s).thenGoto .tagPrepare := rfl

theorem exec_compose_ok {s : State} {out : Block} {d : List Byte} (hf : s.frameable) (hfit : s.fits)
    (h : s.nextAnswer s.composeCall = .ok out d) : ∃ w, FrameWritten s w
      ∧ exec .compose s = .next { s.issue s.composeCall with work := w.afterCall s.msg out }
      ∧ exec .composeFrame s
        = .next (State.goto .tagPrepare { s.issue s.composeCall with work := w.afterCall s.msg out }) := by
  obtain ⟨w, hw, hsteps⟩ := composeSteps_of_fits hf hfit
  have hvalue := hsteps.trans (composeCounter_ok hf.2.1 h)
  exact ⟨w, hw, by rw [exec_compose, hvalue]; rfl, by rw [exec_composeFrame, hvalue]; rfl⟩

/-- Settles O41: on encrypt the tail of the frame is the padded payload. -/
theorem composeBuildsEncryptFrame : Obligations.ComposeBuildsEncryptFrame := by
  intro s m c out d henc ht hn7 hn13 hp hm hcap hc h
  subst hm hc
  obtain ⟨w, hw, hcompose, hphase⟩ := exec_compose_ok (frameable_of ht hn7 hn13 hp)
    ⟨hcap, fun hdec => absurd (hdec.symm.trans henc) Bool.false_ne_true⟩ h
  have htail : s.msg.header ++ s.frameTail = s.msg.frame := by
    rw [State.frameTail, henc]
    rfl
  have hlen := hw.wbufLen
  have hbytes := hw.bytes
  rw [htail] at hlen hbytes
  refine ⟨_, hcompose, hphase, ?_, hw.aadPaddedLen, hw.payloadOffset, hw.ppad, hlen, hbytes⟩
  exact congrArg (fun v : Working => { s.issue s.composeCall with work := v.afterCall s.msg out }) hw.rest

/-- Settles O42: on decrypt the tail of the frame is the whole input. -/
theorem composeBuildsDecryptFrame : Obligations.ComposeBuildsDecryptFrame := by
  intro s m c out d bs hdec ht hn7 hn13 hp hm hbs hinput hcap hc h
  subst hm hc hbs
  have hlen : (s.message s.work.plen.toNat).header.length + s.host.inputLen.toNat ≤ s.cap := by
    rwa [List.length_append, Memory.length_readBytes] at hinput
  obtain ⟨w, hw, hcompose, hphase⟩ := exec_compose_ok (frameable_of ht hn7 hn13 hp) ⟨hcap, fun _ => hlen⟩ h
  have htail : s.frameTail = s.host.inp.readBytes 0 s.host.inputLen.toNat := by
    rw [State.frameTail, hdec]
    rfl
  have hlen := hw.wbufLen
  have hbytes := hw.bytes
  rw [htail] at hlen hbytes
  refine ⟨_, hcompose, hphase, ?_, hw.aadPaddedLen, hw.payloadOffset, hw.ppad, hlen, hbytes⟩
  exact congrArg (fun v : Working => { s.issue s.composeCall with work := v.afterCall s.msg out }) hw.rest

/-- Settles O43: the two TooBig ends of COMPOSE come before its call. -/
theorem oversizeFrameIsTooBig : Obligations.OversizeFrameIsTooBig := by
  intro s m ht hn7 hn13 hp hm hbig
  subst hm
  obtain ⟨hfit, -⟩ | ⟨-, w, hraise, hrest, -⟩ := composeSteps_cases (frameable_of ht hn7 hn13 hp)
  · exact absurd hfit (not_fits_of_lt hbig)
  · refine ⟨State.failureEntry .tooBig { s with work := w }, by rw [exec_composeFrame, hraise]; rfl, ?_⟩
    rw [failureEntry_eq]
    exact congrArg (fun v : Working => { s with
      work := v
      result := { s.result with err := if s.result.err = none then some .tooBig else s.result.err }
      ctl := { s.ctl with phase := .cleanup } }) hrest

/-! ### The statements about calls that fail or never return -/

/-- COMPOSE and its phase at a call without an answer, fail or no return. -/
theorem compose_at_call {s : State} {m : Message} (hfits : s.frameFits m) :
    m = s.msg ∧ legalNonceLen s.host.nonceLen = true
    ∧ ∃ w, FrameWritten s w ∧ composeSteps s = composeCounter { s with work := w } := by
  obtain ⟨ht, hn7, hn13, hp, rfl, hframe, hinput⟩ := hfits
  have hf := frameable_of ht hn7 hn13 hp
  exact ⟨rfl, hf.2.1, composeSteps_of_fits hf ⟨hframe, hinput⟩⟩

/-- Settles O21: each operation raises what its call raises, from the state the call was issued in. -/
theorem engineFailureIsPropagated : Obligations.EngineFailureIsPropagated := by
  intro s
  refine ⟨fun h => ?ecb, fun m c hfits hc h => ?compose, fun off len h16 hlen hb c hc h => ?ctr,
    fun len h16 hl hb c hc h => ?mac, fun c hpad h16 hl hb hc h => ?verify⟩
  case ecb =>
    rw [exec_ecbEncryptBlock, requestEcb_fail h]
    rfl
  case compose =>
    subst hc
    obtain ⟨rfl, hn, w, hw, hsteps⟩ := compose_at_call hfits
    have hraise := hsteps.trans (composeCounter_fail hn h)
    exact ⟨_, hw.atComposeCall, by rw [exec_compose, hraise]; rfl, by rw [exec_composeFrame, hraise]; rfl⟩
  case ctr =>
    subst hc
    exact exec_of_requestCtr_raised hlen (requestCtr_fail h16 hb h)
  case mac =>
    subst hc
    exact exec_of_requestMac_raised (requestMac_fail h16 hl hb h)
  case verify =>
    subst hc
    exact exec_tagVerify_of_raised hpad (computeTag_of_raised (requestMac_fail (s := s.zeroPadding) h16 hl hb h))

/-- Settles O22: each operation is stuck where its call is, in the state the call was issued in. -/
theorem unansweredCallIsStuck : Obligations.UnansweredCallIsStuck := by
  intro s
  refine ⟨fun c hc h => ?ecb, fun m c hfits hc h => ?compose, fun c hc h => ?erase,
    fun off len h16 hlen hb c hc h => ?ctr, fun len h16 hl hb c hc h => ?mac, fun c hpad h16 hl hb hc h => ?verify⟩
  all_goals subst hc
  case ecb =>
    rw [exec_ecbEncryptBlock, requestEcb_noReturn h]
    rfl
  case compose =>
    obtain ⟨rfl, hn, w, hw, hsteps⟩ := compose_at_call hfits
    have hstuck := hsteps.trans (composeCounter_noReturn hn h)
    exact ⟨_, hw.atComposeCall, by rw [exec_compose, hstuck]; rfl, by rw [exec_composeFrame, hstuck]; rfl⟩
  case erase =>
    have hstuck := requestErase_noReturn h
    refine ⟨by rw [exec_keyslotErase, hstuck]; rfl, fun hused hkeep => ?_⟩
    rw [exec_cleanup, releaseKey_erase hused hkeep, hstuck]
    rfl
  case ctr => exact exec_of_requestCtr_stuck hlen (requestCtr_noReturn h16 hb h)
  case mac => exact exec_of_requestMac_stuck (requestMac_noReturn h16 hl hb h)
  case verify =>
    exact exec_tagVerify_of_stuck hpad (computeTag_of_stuck (requestMac_noReturn (s := s.zeroPadding) h16 hl hb h))

end Sys2Proof.Machine
end

section
/-! What a step can do (R120, R200, R240): the ends of a phase step, the effects of the other events, and what follows for
every state: a step is never a stop, and host-owned state changes through the host alone. -/

namespace Sys2Proof.Machine

/-! ### Parts of a phase step write the working registers alone -/

/-- The two states differ in the working registers and the environment at most. -/
def State.WorkOnly (s u : State) : Prop := u = { s with work := u.work, env := u.env }

/-- Every end of the run differs from s in the working registers and the environment at most, and it is no stop. -/
abbrev Run.Quiet {α : Type} (s : State) (r : Run α) : Prop := r.Ends (fun _ u => s.WorkOnly u) (fun _ u => s.WorkOnly u) s.WorkOnly

section
variable {α β : Type} {s u v : State}

theorem State.WorkOnly.refl (s : State) : s.WorkOnly s := rfl

theorem State.WorkOnly.trans (h : s.WorkOnly u) (h' : u.WorkOnly v) : s.WorkOnly v := by
  rw [State.WorkOnly, h', h]

theorem State.WorkOnly.issue (s : State) (c : Call) : s.WorkOnly (s.issue c) := rfl

theorem State.WorkOnly.host (h : s.WorkOnly u) : u.host = s.host := by rw [h]

theorem State.WorkOnly.out (h : s.WorkOnly u) : u.result.out = s.result.out := by rw [h]

theorem Run.quiet_bind {r : Run α} {f : α → State → Run β} (h : r.Quiet s)
    (hf : ∀ a u, s.WorkOnly u → (f a u).Quiet u) : (r.bind f).Quiet s :=
  Run.Ends.bind h fun a u hu =>
    (hf a u hu).mono (fun _ _ hv => hu.trans hv) (fun _ _ hv => hu.trans hv) fun _ hv => hu.trans hv

theorem Run.quiet_check {p : Prop} [Decidable p] {r : Run α} (h : r.Quiet s) : (Run.check p s r).Quiet s := by
  unfold Run.check
  split
  · exact h
  · exact State.WorkOnly.refl s

theorem quiet_request (s : State) (c : Call) : (s.request c).Quiet s := by
  refine (request_ends s c).mono ?_ ?_ ?_
  · rintro a u ⟨rfl, -⟩
    exact State.WorkOnly.issue s c
  · rintro e u ⟨-, rfl, -⟩
    exact State.WorkOnly.issue s c
  · rintro u ⟨rfl, -⟩
    exact State.WorkOnly.issue s c

theorem quiet_requestCtr (off len : Word) (s : State) : (requestCtr off len s).Quiet s := by
  unfold requestCtr
  split
  · exact State.WorkOnly.refl s
  · exact Run.quiet_check (Run.quiet_bind (quiet_request s _) fun _ _ _ => rfl)

theorem quiet_requestMac (len : Word) (s : State) : (requestMac len s).Quiet s := by
  unfold requestMac
  split
  · exact State.WorkOnly.refl s
  · exact Run.quiet_check (Run.quiet_bind (quiet_request s _) fun _ _ _ => rfl)

theorem quiet_computeTag (len : Word) (s : State) : (computeTag len s).Quiet s :=
  Run.quiet_bind (quiet_requestMac len s) fun _ u _ => Run.quiet_check (State.WorkOnly.refl u)

theorem quiet_cipherRegion (off len : Word) (s : State) : (cipherRegion off len s).Quiet s := by
  unfold cipherRegion
  split
  · exact State.WorkOnly.refl s
  · exact quiet_requestCtr off len s

theorem quiet_checkArgs (s : State) : (checkArgs s).Quiet s := by
  by_cases h : s.legalArgs
  · rw [checkArgs_of_legal h]
    split
    · exact State.WorkOnly.refl s
    · rfl
  · rw [checkArgs_of_not_legal h]
    exact State.WorkOnly.refl s

theorem quiet_unmaskCandidate (s : State) : (unmaskCandidate s).Quiet s := by
  refine Run.quiet_check (Run.quiet_check ?_)
  unfold closeFrame Run.check
  split <;> rfl

theorem quiet_settleTag (t : List Byte) (s : State) : (settleTag t s).Quiet s := by
  unfold settleTag
  simp only
  split <;> rfl

theorem quiet_checkTag (s : State) : (checkTag s).Quiet s := by
  have hzero : s.WorkOnly s.zeroPadding := rfl
  refine Run.quiet_check (Run.quiet_check (Run.quiet_bind ?_ fun t u _ => quiet_settleTag t u))
  exact (quiet_computeTag _ s.zeroPadding).mono (fun _ _ h => hzero.trans h) (fun _ _ h => hzero.trans h)
    fun _ h => hzero.trans h

theorem encodeB0_of_not_frameable {nonceLen tagLen payloadLen : Word} (nonce : NonceBytes) (aadLen : Long)
    (h : ¬ frameable nonceLen tagLen payloadLen) : ∃ e, encodeB0 nonce nonceLen tagLen aadLen payloadLen = .error e := by
  by_cases hlegal : legalTagLen tagLen = false ∨ legalNonceLen nonceLen = false
  · exact ⟨_, encodeB0_error nonce (encodeB0Flags_invalid _ payloadLen hlegal)⟩
  · obtain ⟨ht, hn⟩ : legalTagLen tagLen = true ∧ legalNonceLen nonceLen = true := by simpa using hlegal
    have hp : lengthFits (15 - nonceLen.toNat) payloadLen = false := by
      rw [← Bool.not_eq_true]
      exact fun hp => h ⟨ht, hn, hp⟩
    exact ⟨_, encodeB0_error nonce (encodeB0Flags_badLength _ ht hn hp)⟩

/-- COMPOSE never meets the domain test of ENC_CTR0: ENC_B0 has tested the nonce length before. -/
theorem quiet_composeSteps (s : State) : (composeSteps s).Quiet s := by
  by_cases hf : s.frameable
  · obtain ⟨-, w, hw, hsteps⟩ | ⟨-, w, hraise, -⟩ := composeSteps_cases hf
    · rw [hsteps, composeCounter_eq_of_written hf.2.1]
      cases s.nextAnswer s.composeCall <;> rfl
    · rw [hraise]
      rfl
  · obtain ⟨e, he⟩ := encodeB0_of_not_frameable s.nonceBytes s.host.aadLen hf
    rw [composeSteps, composeB0, he]
    exact State.WorkOnly.refl s

end

/-! ### The ends of a phase step -/

/-- The operation PHASE selects, with IS_ENC (R104, R120). -/
def Phase.instr (isEnc : Bool) : Phase → Instr
  | .idle => .idle
  | .validateArgs => .validateArgs
  | .composeFrame => .composeFrame
  | .tagPrepare => if isEnc then .tagPrepareEnc else .tagPrepareDec
  | .cipherPayload => .cipherPayload
  | .tagFinalize => .tagFinalize
  | .tagVerify => .tagVerify
  | .emitResult => if isEnc then .emitResultEnc else .emitResultDec
  | .cleanup => .cleanup

/-- The operation the Orchestrator's turn runs. -/
abbrev State.phaseInstr (s : State) : Instr := s.ctl.phase.instr s.isEnc

theorem decode_phaseSelector (s : State) : decode s.phaseSelector = .ok s.phaseInstr := by
  unfold State.phaseSelector State.phaseInstr
  cases s.ctl.phase <;> rfl

/-- How a phase step from s can end. -/
inductive PhaseStep (s : State) : State → Prop where
  /-- In IDLE nothing happens (R218). -/
  | rests (h : s.ctl.phase = .idle) : PhaseStep s s
  /-- Its call does not return (R219). -/
  | sticks {u : State} (hu : s.WorkOnly u) : PhaseStep s u.hang
  /-- A part of it raises an error (R288); CLEANUP raises none (R263). -/
  | raises {u : State} {e : CcmError} (hu : s.WorkOnly u) (hp : s.ctl.phase.beforeEmit = true) :
    PhaseStep s (u.failureEntry e)
  /-- Its normal end before EMIT_RESULT: a later phase. -/
  | advances {u : State} {p : Phase} (hu : s.WorkOnly u) (hp : p.remaining < s.ctl.phase.remaining) : PhaseStep s (u.goto p)
  /-- EMIT_RESULT writes OUT and OUT_LEN (R209, R210). -/
  | emits {bs : List Byte} {n : Word} (h : s.ctl.phase = .emitResult) : PhaseStep s ((s.emit bs n).goto .cleanup)
  /-- CLEANUP ends the command (R211 to R214). -/
  | ends {env : Env} {err : Option CcmError} (h : s.ctl.phase = .cleanup) :
    PhaseStep s (State.concluded { s with env := env, result := { s.result with err := err } })

/-- A quiet run as a phase step. -/
theorem phaseStep_of_quiet {α : Type} {s : State} {r : Run α} {p : Phase} (hr : r.Quiet s)
    (hbefore : s.ctl.phase.beforeEmit = true) (hp : p.remaining < s.ctl.phase.remaining) :
    ∃ t, r.thenGoto p = .next t ∧ PhaseStep s t := by
  obtain ⟨t, ht, ⟨a, u, hu, rfl⟩ | ⟨e, u, hu, rfl⟩ | ⟨u, hu, rfl⟩⟩ := hr.finish (fun _ s => s.goto p)
  · exact ⟨_, ht, .advances hu hp⟩
  · exact ⟨_, ht, .raises hu hbefore⟩
  · exact ⟨_, ht, .sticks hu⟩

/-- An emission under a check, as a phase step. -/
theorem phaseStep_of_check {s : State} {p : Prop} [Decidable p] {r : Run Unit} (hphase : s.ctl.phase = .emitResult)
    (h : ∃ t, r.thenGoto .cleanup = .next t ∧ PhaseStep s t) :
    ∃ t, (Run.check p s r).thenGoto .cleanup = .next t ∧ PhaseStep s t := by
  unfold Run.check
  split
  · exact h
  · exact ⟨_, rfl, .raises (State.WorkOnly.refl s) (by rw [hphase]; rfl)⟩

theorem phaseStep_emitResult {s : State} (hphase : s.ctl.phase = .emitResult) :
    (∃ t, exec .emitResultEnc s = .next t ∧ PhaseStep s t) ∧ ∃ t, exec .emitResultDec s = .next t ∧ PhaseStep s t :=
  ⟨phaseStep_of_check hphase (phaseStep_of_check hphase (phaseStep_of_check hphase ⟨_, rfl, .emits hphase⟩)),
    phaseStep_of_check hphase (phaseStep_of_check hphase ⟨_, rfl, .emits hphase⟩)⟩

theorem phaseStep_cleanup {s : State} (hphase : s.ctl.phase = .cleanup) :
    ∃ t, exec .cleanup s = .next t ∧ PhaseStep s t := by
  by_cases hreturns : (s.work.keyUsed = false ∨ s.keepKey = true) ∨ s.nextAnswer s.eraseCall ≠ .noReturn
  · exact ⟨_, exec_cleanup_returns hreturns, .ends hphase⟩
  · obtain ⟨hused, hkeep, hno⟩ : s.work.keyUsed = true ∧ s.keepKey = false ∧ s.nextAnswer s.eraseCall = .noReturn := by
      simpa [and_assoc] using hreturns
    refine ⟨_, ?_, .sticks (State.WorkOnly.issue s s.eraseCall)⟩
    rw [exec_cleanup, releaseKey_erase hused hkeep, requestErase_noReturn hno, Run.finish_stuck]

/-- Every turn of the Orchestrator is a next state of one of the six kinds. -/
theorem exec_phaseInstr (s : State) : ∃ t, exec s.phaseInstr s = .next t ∧ PhaseStep s t := by
  unfold State.phaseInstr
  cases hp : s.ctl.phase with
  | idle => exact ⟨s, rfl, .rests hp⟩
  | validateArgs => exact phaseStep_of_quiet (quiet_checkArgs s) (by rw [hp]; rfl) (by rw [hp]; decide)
  | composeFrame => exact phaseStep_of_quiet (quiet_composeSteps s) (by rw [hp]; rfl) (by rw [hp]; decide)
  | tagPrepare =>
    cases s.isEnc with
    | true =>
      exact phaseStep_of_quiet (Run.quiet_bind (quiet_computeTag s.work.wbufLen s) fun _ _ _ => rfl) (by rw [hp]; rfl)
        (by rw [hp]; decide)
    | false => exact phaseStep_of_quiet (quiet_unmaskCandidate s) (by rw [hp]; rfl) (by rw [hp]; decide)
  | cipherPayload =>
    refine phaseStep_of_quiet (quiet_cipherRegion s.work.payloadOffset s.work.ppad s) (by rw [hp]; rfl) ?_
    rw [hp]
    cases s.isEnc <;> decide
  | tagFinalize => exact phaseStep_of_quiet (Run.quiet_check rfl) (by rw [hp]; rfl) (by rw [hp]; decide)
  | tagVerify => exact phaseStep_of_quiet (quiet_checkTag s) (by rw [hp]; rfl) (by rw [hp]; decide)
  | emitResult =>
    cases s.isEnc with
    | true => exact (phaseStep_emitResult hp).1
    | false => exact (phaseStep_emitResult hp).2
  | cleanup => exact phaseStep_cleanup hp

/-! ### The effects of events -/

/-- What an event can do to the state. -/
inductive EventStep (s : State) : Event → State → Prop where
  /-- The Orchestrator's turn (R200). -/
  | turn {t : State} (hhung : s.hung = false) (hexec : exec s.phaseInstr s = .next t) (h : PhaseStep s t) :
    EventStep s .tick t
  /-- The turn of a stuck Orchestrator (R219). -/
  | stands (hhung : s.hung = true) : EventStep s .tick s
  /-- Nothing of the block changes: reads, pseudo-instructions, writes without effect. -/
  | leaves (e : Event) (env : Env) : EventStep s e { s with env := env }
  /-- A write dropped while BUSY (R246, R247). -/
  | drops (e : Event) : EventStep s e s.reject
  /-- START (R244). -/
  | starts {w : Word} (hidle : s.result.busy = false) : EventStep s (.hwr 0 w) (s.start w)
  /-- A register write while idle (R241). -/
  | storesReg {reg v : Word} (hidle : s.result.busy = false) :
    EventStep s (.hwr reg v) { s with host := s.host.writeReg reg v }
  /-- A byte write while idle (R243). -/
  | storesByte {sp : Nat} {S : Space} {off : Word} {v : Byte} (hidle : s.result.busy = false)
    (hoff : off.toNat < s.capacity S) : EventStep s (.hwrb sp off v) (s.setHostByte S off.toNat v)
  /-- RESET (R311). -/
  | resets : EventStep s .reset { State.reset with capUnits := s.capUnits, env := s.env }

theorem eventStep_hwr (reg v : Word) (s : State) : EventStep s (.hwr reg v) (s.hostWrite reg v) := by
  by_cases h0 : reg = 0
  · subst h0
    rw [hostWrite_zero]
    obtain ⟨-, hw⟩ | ⟨-, -, hw⟩ | ⟨hidle, -, hw⟩ := cmdWrite_cases s v
    · rw [hw]
      exact .drops _
    · rw [hw]
      exact .leaves _ s.env
    · rw [hw]
      exact .starts hidle
  · by_cases hreg : 2 ≤ reg.toNat ∧ reg.toNat ≤ 7
    · rw [hostWrite_of_isHostReg v s hreg]
      cases hbusy : s.result.busy with
      | true => exact .drops _
      | false => exact .storesReg hbusy
    · have hne : reg.toNat ≠ 0 := fun h => h0 (BitVec.eq_of_toNat_eq h)
      rw [hostWrite_of_not_isHostReg v s (by omega)]
      exact .leaves _ s.env

theorem eventStep_hwrb (sp : Nat) (off : Word) (v : Byte) (s : State) :
    EventStep s (.hwrb sp off v) (s.hostWriteByte sp off v) := by
  unfold State.hostWriteByte
  split
  · exact .leaves _ s.env
  · split_ifs with hoff hout hbusy
    · exact .leaves _ s.env
    · exact .leaves _ s.env
    · exact .drops _
    · exact .storesByte (by simpa using hbusy) (by omega)

theorem eventStep_ccmReturn (s : State) : EventStep s .ccmReturn s.ccmReturn := by
  unfold State.ccmReturn
  simp only
  split <;> exact .leaves _ _

theorem runEvent_tick_of_not_hung {s : State} (hhung : s.hung = false) : runEvent .tick s = exec s.phaseInstr s :=
  (if_neg (by simp [hhung])).trans (runSelector_of_decode s (decode_phaseSelector s))

/-- Every event in every state is a next state. -/
theorem runEvent_cases (e : Event) (s : State) : ∃ t, runEvent e s = .next t ∧ EventStep s e t := by
  cases e with
  | tick =>
    cases hhung : s.hung with
    | true => exact ⟨s, if_pos hhung, .stands hhung⟩
    | false =>
      obtain ⟨t, ht, hstep⟩ := exec_phaseInstr s
      exact ⟨t, (runEvent_tick_of_not_hung hhung).trans ht, .turn hhung ht hstep⟩
  | hwr reg v =>
    refine ⟨_, ?_, eventStep_hwr reg v s⟩
    show exec (if reg = 0 then decodeCmd v else .hwr reg v) s = _
    split
    · next h => rw [exec_decodeCmd, h, hostWrite_zero]
    · rfl
  | hrd reg => exact ⟨_, rfl, .leaves _ _⟩
  | hwrb sp off v => exact ⟨_, rfl, eventStep_hwrb sp off v s⟩
  | hrdb sp off => exact ⟨_, rfl, .leaves _ _⟩
  | poll =>
    refine ⟨_, exec_poll s, ?_⟩
    split <;> exact .leaves _ _
  | ccmProcess a => exact ⟨_, rfl, .leaves _ _⟩
  | ccmReturn => exact ⟨_, rfl, eventStep_ccmReturn s⟩
  | reset => exact ⟨_, rfl, .resets⟩

/-- A step is the effect of the next event on the state with that event taken. -/
theorem eventStep_of_step {s t : State} (h : step s = .next t) : EventStep s.takeEvent s.nextEvent t := by
  obtain ⟨t', ht', hstep⟩ := runEvent_cases s.nextEvent s.takeEvent
  rw [step, ht'] at h
  cases h
  exact hstep

/-- Settles O54: every event has an effect. -/
theorem stepNeverStops : Obligations.StepNeverStops := fun s =>
  (runEvent_cases s.nextEvent s.takeEvent).imp fun _ h => h.1

/-! ### Who changes the host-owned state -/

theorem concluded_host (s : State) : s.concluded.host = s.host := by
  by_cases h : s.result.err = none
  · rw [concluded_of_success h]
    rfl
  · rw [concluded_of_failure h]
    rfl

theorem PhaseStep.host {s t : State} (h : PhaseStep s t) : t.host = s.host := by
  cases h with
  | rests => rfl
  | sticks hu => exact hu.host
  | raises hu => exact hu.host
  | advances hu => exact hu.host
  | emits => rfl
  | ends => exact concluded_host _

/-- Settles O55: of the effects of an event only the two stores and RESET write host-owned state. -/
theorem onlyHostChangesHostState : Obligations.OnlyHostChangesHostState := by
  intro s t hstep hne
  have h := eventStep_of_step hstep
  generalize s.nextEvent = e at h ⊢
  cases h with
  | turn _ _ hphase => exact absurd hphase.host hne
  | stands => exact absurd rfl hne
  | leaves => exact absurd rfl hne
  | drops => exact absurd rfl hne
  | starts => exact absurd rfl hne
  | storesReg hidle => exact .inr ⟨hidle, .inl ⟨_, _, rfl⟩⟩
  | storesByte hidle => exact .inr ⟨hidle, .inr ⟨_, _, _, rfl⟩⟩
  | resets => exact .inl rfl

theorem concluded_phase (s : State) : s.concluded.ctl.phase = .idle := by
  by_cases h : s.result.err = none
  · rw [concluded_of_success h]
    rfl
  · rw [concluded_of_failure h]
    rfl

/-! ### What writes OUT -/

theorem get_out_concluded (s : State) (a : Nat) :
    s.concluded.result.out.get a = s.result.out.get a ∨ s.concluded.result.out.get a = 0 := by
  by_cases h : s.result.err = none
  · rw [concluded_of_success h]
    exact .inl rfl
  · rw [concluded_of_failure h]
    show (s.result.out.zeroFill 0 s.cap).get a = _ ∨ (s.result.out.zeroFill 0 s.cap).get a = 0
    rw [get_zeroFill_below]
    split
    · exact .inr rfl
    · exact .inl rfl

theorem setHostByte_result (S : Space) (x : Nat) (v : Byte) (s : State) : (s.setHostByte S x v).result = s.result := by
  rw [setHostByte_eq]

/-- Outside EMIT_RESULT a byte of OUT stays or becomes 0. -/
theorem PhaseStep.get_out {s t : State} (h : PhaseStep s t) (a : Nat) :
    s.ctl.phase = .emitResult ∨ t.result.out.get a = s.result.out.get a ∨ t.result.out.get a = 0 := by
  cases h with
  | rests => exact .inr (.inl rfl)
  | sticks hu => exact .inr (.inl (congrArg (Memory.get · a) hu.out))
  | raises hu => exact .inr (.inl (congrArg (Memory.get · a) hu.out))
  | advances hu => exact .inr (.inl (congrArg (Memory.get · a) hu.out))
  | emits hp => exact .inl hp
  | ends => exact .inr (get_out_concluded _ a)

theorem EventStep.get_out {s t : State} {e : Event} (h : EventStep s e t) (a : Nat) :
    s.ctl.phase = .emitResult ∨ t.result.out.get a = s.result.out.get a ∨ t.result.out.get a = 0 := by
  cases h with
  | turn _ _ hphase => exact hphase.get_out a
  | stands => exact .inr (.inl rfl)
  | leaves => exact .inr (.inl rfl)
  | drops => exact .inr (.inl rfl)
  | starts =>
    rw [start_result, get_zeroFill_below]
    split
    · exact .inr (.inr rfl)
    · exact .inr (.inl rfl)
  | storesReg => exact .inr (.inl rfl)
  | storesByte => exact .inr (.inl (by rw [setHostByte_result]))
  | resets => exact .inr (.inr rfl)

/-- Settles O56: only EMIT_RESULT adds to OUT, and the invariant holds it to a verified tag on decrypt. -/
theorem outputOnlyAfterVerification : Obligations.OutputOnlyAfterVerification := by
  intro s t a hinv hstep hchanged hnonzero
  have hphase : s.ctl.phase = .emitResult := by
    rcases (eventStep_of_step hstep).get_out a with h | h | h
    · exact h
    · exact absurd h hchanged
    · exact absurd h hnonzero
  refine ⟨hphase, ?_⟩
  cases henc : s.isEnc with
  | true => exact .inl rfl
  | false => exact .inr (hinv.verified hphase henc)

/-! ### Progress -/

/-- Settles O57: each end of a phase step is a stuck step, a later phase or the rest in IDLE. -/
theorem phaseStepMakesProgress : Obligations.PhaseStepMakesProgress := by
  intro s t _ htick hhung hstep
  obtain ⟨t', ht', hphase⟩ := exec_phaseInstr s.takeEvent
  rw [step_of_nextEvent htick, runEvent_tick_of_not_hung (s := s.takeEvent) hhung, ht'] at hstep
  cases hstep
  cases hphase with
  | rests hp => exact .inr (.inr ⟨hp, rfl⟩)
  | sticks => exact .inl rfl
  | raises _ hbefore =>
    refine .inr (.inl ?_)
    show 1 < s.ctl.phase.remaining
    change s.ctl.phase.beforeEmit = true at hbefore
    revert hbefore
    cases s.ctl.phase <;> decide
  | advances _ hp => exact .inr (.inl hp)
  | emits hp =>
    refine .inr (.inl ?_)
    rw [show s.ctl.phase = .emitResult from hp]
    exact Nat.lt_succ_self 1
  | ends hp =>
    refine .inr (.inl ?_)
    rw [concluded_phase, show s.ctl.phase = .cleanup from hp]
    decide

end Sys2Proof.Machine
end

section
/-! The invariant (R30, R54, R102, R168, R213, R220, R284): the reset state meets it and every step keeps it. Three kinds of
states meet it, each with a constructor here: at rest, running before the emission, and in CLEANUP. -/

namespace Sys2Proof.Machine

/-! ### At rest -/

/-- A state at rest, between commands (R54). -/
structure State.Resting (s : State) : Prop where
  spaces : s.spacesOk
  phase : s.ctl.phase = .idle
  busy : s.result.busy = false
  hung : s.hung = false
  zero : s.work = Working.zero ∧ s.ctl.cmdLatch = 0
  not_badState : s.result.err ≠ some .badState
  no_output : s.result.err ≠ none → s.result.out = [] ∧ s.result.outLen = 0
  outLen_le : s.result.outLen.toNat ≤ s.cap
  out_tail : s.result.out.below s.result.outLen.toNat

theorem State.Resting.inv {s : State} (h : s.Resting) : s.Inv where
  spaces := h.spaces
  busy_iff := by simp [h.busy, h.phase]
  not_both := by simp [h.busy]
  hung_busy := by simp [h.hung]
  resting := fun _ => h.zero
  fresh := by simp [h.phase]
  failed := fun _ => .inr h.phase
  not_badState := h.not_badState
  gate := by simp [h.phase, Phase.beforeEmit]
  no_output := h.no_output
  outLen_le := h.outLen_le
  out_tail := h.out_tail
  args := by simp [h.phase, Phase.validated]
  layout := by simp [h.phase, Phase.composed]
  frameLen := by simp [h.phase, Phase.composed]
  inputLen := by simp [h.phase]
  finalize_enc := by simp [h.phase]
  verify_dec := by simp [h.phase]
  verified := by simp [h.phase]

theorem State.Inv.phase_of_idle {s : State} (h : s.Inv) (hidle : s.result.busy = false) : s.ctl.phase = .idle := by
  by_contra hne
  rw [h.busy_iff.mpr hne] at hidle
  exact absurd hidle nofun

theorem State.Inv.resting_of_idle {s : State} (h : s.Inv) (hidle : s.result.busy = false) : s.Resting where
  spaces := h.spaces
  phase := h.phase_of_idle hidle
  busy := hidle
  hung := by
    by_contra hhung
    rw [h.hung_busy (by simpa using hhung)] at hidle
    exact absurd hidle nofun
  zero := h.resting (h.phase_of_idle hidle)
  not_badState := h.not_badState
  no_output := h.no_output
  outLen_le := h.outLen_le
  out_tail := h.out_tail

/-- The reset state, whatever CAP and the environment are (R311). -/
theorem resting_reset (cap : Fin 268435454) (env : Env) :
    State.Resting { State.reset with capUnits := cap, env := env } where
  spaces := ⟨Memory.nil_ok _, Memory.nil_ok _, Memory.nil_ok _, Memory.nil_ok _, Memory.nil_ok _⟩
  phase := rfl
  busy := rfl
  hung := rfl
  zero := ⟨rfl, rfl⟩
  not_badState := nofun
  no_output := fun _ => ⟨rfl, rfl⟩
  outLen_le := Nat.zero_le _
  out_tail := nofun

/-- Settles O52: reset is a state at rest. -/
theorem resetMeetsInvariant : Obligations.ResetMeetsInvariant :=
  (resting_reset Config.capUnits State.reset.env).inv

/-! ### Running, nothing emitted yet -/

/-- A command that runs and has not emitted anything: no error, no output. -/
structure State.Running (s : State) : Prop where
  spaces : s.spacesOk
  busy : s.result.busy = true
  done : s.result.done = false
  err : s.result.err = none
  out : s.result.out = []
  outLen : s.result.outLen = 0

theorem State.Inv.running {s : State} (h : s.Inv) (hp : s.ctl.phase.beforeEmit = true) : s.Running where
  spaces := h.spaces
  busy := h.busy_iff.mpr fun h0 => by simp [h0, Phase.beforeEmit] at hp
  done := by
    have hbusy : s.result.busy = true := h.busy_iff.mpr fun h0 => by simp [h0, Phase.beforeEmit] at hp
    simpa [hbusy] using h.not_both
  err := by
    by_contra herr
    rcases h.failed herr with hc | hc <;> simp [hc, Phase.beforeEmit] at hp
  out := (h.gate hp).1
  outLen := (h.gate hp).2

/-- The states t that a part of a phase step from s can lead to: WBUF still canonical and inside CAP. -/
structure State.Leads (s t : State) : Prop where
  eq : t = { s with work := t.work, ctl := { s.ctl with phase := t.ctl.phase }, hung := t.hung, env := t.env }
  wbuf : t.work.wbuf.ok s.cap

theorem State.Running.leads {s t : State} (h : s.Running) (ht : s.Leads t) : t.Running := by
  obtain ⟨hnonce, haad, hinp, hout, -⟩ := h.spaces
  rw [ht.eq]
  exact ⟨⟨hnonce, haad, hinp, hout, ht.wbuf⟩, h.busy, h.done, h.err, h.out, h.outLen⟩

theorem Phase.beforeEmit_cases {p : Phase} (hp : p.beforeEmit = true) : p ≠ .idle ∧ p ≠ .cleanup := by
  revert hp
  cases p <;> decide

/-- What the phases from TAG_PREPARE to EMIT_RESULT add: the parameters, the layout, WBUF_LEN, and which path they are on. -/
structure State.Framed (s : State) : Prop where
  phase : s.ctl.phase.composed = true
  args : s.argsOk
  layout : s.layoutOk
  frameLen : s.isEnc = true ∨ s.ctl.phase ≠ .tagPrepare →
    s.work.wbufLen.toNat = s.work.payloadOffset.toNat + s.work.ppad.toNat
  inputLen : s.ctl.phase = .tagPrepare → s.isEnc = false →
    s.work.wbufLen.toNat = s.work.payloadOffset.toNat + s.host.inputLen.toNat
  finalize_enc : s.ctl.phase = .tagFinalize → s.isEnc = true
  verify_dec : s.ctl.phase = .tagVerify → s.isEnc = false
  verified : s.ctl.phase = .emitResult → s.isEnc = false → s.work.verifyOk = true

/-- A running command meets the invariant once its phase's own part of it holds. -/
theorem State.Running.inv {s : State} (h : s.Running) (hp : s.ctl.phase.beforeEmit = true)
    (hfresh : s.ctl.phase = .validateArgs → s.work = Working.zero) (hargs : s.ctl.phase.validated = true → s.argsOk)
    (hframed : s.ctl.phase.composed = true → s.Framed) : s.Inv where
  spaces := h.spaces
  busy_iff := by simp [h.busy, (Phase.beforeEmit_cases hp).1]
  not_both := by simp [h.done]
  hung_busy := fun _ => h.busy
  resting := fun h0 => absurd h0 (Phase.beforeEmit_cases hp).1
  fresh := hfresh
  failed := by simp [h.err]
  not_badState := by simp [h.err]
  gate := fun _ => ⟨h.out, h.outLen⟩
  no_output := by simp [h.err]
  outLen_le := by simp [h.outLen]
  out_tail := by simp [h.out]
  args := hargs
  layout := fun hc => (hframed hc).layout
  frameLen := fun hc => (hframed hc).frameLen
  inputLen := fun h0 => (hframed (by rw [h0]; rfl)).inputLen h0
  finalize_enc := fun h0 => (hframed (by rw [h0]; rfl)).finalize_enc h0
  verify_dec := fun h0 => (hframed (by rw [h0]; rfl)).verify_dec h0
  verified := fun h0 => (hframed (by rw [h0]; rfl)).verified h0

theorem State.Running.inv_of_validateArgs {s : State} (h : s.Running) (hp : s.ctl.phase = .validateArgs)
    (hwork : s.work = Working.zero) : s.Inv :=
  h.inv (by rw [hp]; rfl) (fun _ => hwork) (by simp [hp, Phase.validated]) (by simp [hp, Phase.composed])

theorem State.Running.inv_of_composeFrame {s : State} (h : s.Running) (hp : s.ctl.phase = .composeFrame)
    (hargs : s.argsOk) : s.Inv :=
  h.inv (by rw [hp]; rfl) (by simp [hp]) (fun _ => hargs) (by simp [hp, Phase.composed])

theorem Phase.composed_cases {p : Phase} (hp : p.composed = true) :
    p.beforeEmit = true ∧ p.validated = true ∧ p ≠ .validateArgs := by
  revert hp
  cases p <;> decide

theorem State.Framed.inv {s : State} (h : s.Framed) (hr : s.Running) : s.Inv := by
  obtain ⟨hbefore, -, hne⟩ := Phase.composed_cases h.phase
  exact hr.inv hbefore (fun h0 => absurd h0 hne) (fun _ => h.args) fun _ => h

theorem State.Inv.framed {s : State} (h : s.Inv) (hp : s.ctl.phase.composed = true) : s.Framed where
  phase := hp
  args := h.args (Phase.composed_cases hp).2.1
  layout := h.layout hp
  frameLen := h.frameLen hp
  inputLen := h.inputLen
  finalize_enc := h.finalize_enc
  verify_dec := h.verify_dec
  verified := h.verified

/-- PLEN, Q, KEY_USED and the layout registers are as before. -/
def Working.SameLayout (w v : Working) : Prop :=
  v = { w with verifyOk := v.verifyOk, wbufLen := v.wbufLen, ctr := v.ctr, s0 := v.s0, rawTag := v.rawTag,
               candTag := v.candTag, mtag := v.mtag, wbuf := v.wbuf }

/-- A stuck step keeps its phase, and with it all that the phase says. -/
theorem State.Framed.hang {s t : State} (h : s.Framed) (ht : s.Leads t) (hw : s.work.SameLayout t.work)
    (hp : t.ctl.phase = s.ctl.phase) (hlen : t.work.wbufLen = s.work.wbufLen) (hok : t.work.verifyOk = s.work.verifyOk) :
    t.Framed := by
  rw [ht.eq, hp, hw, hlen, hok]
  exact ⟨h.phase, h.args, h.layout, h.frameLen, h.inputLen, h.finalize_enc, h.verify_dec, h.verified⟩

/-- The normal end of a phase from TAG_PREPARE on. -/
theorem State.Framed.goto {s t : State} (h : s.Framed) (ht : s.Leads t) (hw : s.work.SameLayout t.work)
    (hp : t.ctl.phase.composed = true) (htp : t.ctl.phase ≠ .tagPrepare)
    (hlen : t.work.wbufLen.toNat = s.work.payloadOffset.toNat + s.work.ppad.toNat)
    (hfin : t.ctl.phase = .tagFinalize → s.isEnc = true) (hver : t.ctl.phase = .tagVerify → s.isEnc = false)
    (hok : t.ctl.phase = .emitResult → s.isEnc = false → t.work.verifyOk = true) : t.Framed := by
  rw [ht.eq, hw]
  exact ⟨hp, h.args, h.layout, fun _ => hlen, fun h0 => absurd h0 htp, hfin, hver, hok⟩

/-! ### In CLEANUP -/

/-- A command in CLEANUP, failed or with its output emitted. -/
structure State.Ending (s : State) : Prop where
  spaces : s.spacesOk
  phase : s.ctl.phase = .cleanup
  busy : s.result.busy = true
  done : s.result.done = false
  not_badState : s.result.err ≠ some .badState
  no_output : s.result.err ≠ none → s.result.out = [] ∧ s.result.outLen = 0
  outLen_le : s.result.outLen.toNat ≤ s.cap
  out_tail : s.result.out.below s.result.outLen.toNat

theorem State.Ending.inv {s : State} (h : s.Ending) : s.Inv where
  spaces := h.spaces
  busy_iff := by simp [h.busy, h.phase]
  not_both := by simp [h.done]
  hung_busy := fun _ => h.busy
  resting := by simp [h.phase]
  fresh := by simp [h.phase]
  failed := fun _ => .inl h.phase
  not_badState := h.not_badState
  gate := by simp [h.phase, Phase.beforeEmit]
  no_output := h.no_output
  outLen_le := h.outLen_le
  out_tail := h.out_tail
  args := by simp [h.phase, Phase.validated]
  layout := by simp [h.phase, Phase.composed]
  frameLen := by simp [h.phase, Phase.composed]
  inputLen := by simp [h.phase]
  finalize_enc := by simp [h.phase]
  verify_dec := by simp [h.phase]
  verified := by simp [h.phase]

theorem State.Inv.ending {s : State} (h : s.Inv) (hp : s.ctl.phase = .cleanup) : s.Ending where
  spaces := h.spaces
  phase := hp
  busy := h.busy_iff.mpr (by simp [hp])
  done := by
    have hbusy : s.result.busy = true := h.busy_iff.mpr (by simp [hp])
    simpa [hbusy] using h.not_both
  not_badState := h.not_badState
  no_output := h.no_output
  outLen_le := h.outLen_le
  out_tail := h.out_tail

/-- A raise other than BadState before the emission. -/
theorem State.Running.failureEntry {s : State} {e : CcmError} (h : s.Running) (he : e ≠ .badState) :
    (s.failureEntry e).Ending where
  spaces := h.spaces
  phase := rfl
  busy := h.busy
  done := h.done
  not_badState := by simp [h.err, he]
  no_output := fun _ => ⟨h.out, h.outLen⟩
  outLen_le := by simp [h.outLen]
  out_tail := by simp [h.out]

/-- The emission of a result that fits CAP (R209, R210). -/
theorem State.Running.emit {s : State} {bs : List Byte} {n : Word} (h : s.Running) (hn : bs.length = n.toNat)
    (hcap : n.toNat ≤ s.cap) : ((s.emit bs n).goto .cleanup).Ending where
  spaces := by
    obtain ⟨hnonce, haad, hinp, hout, hwbuf⟩ := h.spaces
    exact ⟨hnonce, haad, hinp, Memory.writeBytes_ok s.result.out 0 bs s.cap hout (by omega), hwbuf⟩
  phase := rfl
  busy := h.busy
  done := h.done
  not_badState := by simp [h.err]
  no_output := by simp [h.err]
  outLen_le := hcap
  out_tail := by
    show Memory.below (Memory.writeBytes s.result.out 0 bs) n.toNat
    rw [h.out]
    exact Memory.writeBytes_below _ _ _ _ nofun (by omega)

/-- CLEANUP's parts 2 to 4 lead to rest whatever ERR is: an output that stands beside an error is withdrawn (R212 to
R214). -/
theorem resting_concluded {s : State} (hspaces : s.spacesOk) (hhung : s.hung = false)
    (hbad : s.result.err ≠ some .badState) (hle : s.result.outLen.toNat ≤ s.cap)
    (htail : s.result.out.below s.result.outLen.toNat) : s.concluded.Resting := by
  obtain ⟨hnonce, haad, hinp, hout, hwbuf⟩ := hspaces
  have hwork : { Working.zero with wbuf := s.work.wbuf.zeroFill 0 s.cap } = Working.zero := by
    rw [Memory.zeroFill_all _ _ hwbuf.2]
    rfl
  have hempty : s.result.out.zeroFill 0 s.cap = [] := Memory.zeroFill_all _ _ hout.2
  by_cases herr : s.result.err = none
  · rw [concluded_of_success herr]
    exact ⟨⟨hnonce, haad, hinp, hout, Memory.zeroFill_ok _ _ _ _ hwbuf⟩, rfl, rfl, hhung, ⟨hwork, rfl⟩,
      hbad, fun hne => absurd herr hne, hle, htail⟩
  · rw [concluded_of_failure herr]
    exact ⟨⟨hnonce, haad, hinp, Memory.zeroFill_ok _ _ _ _ hout, Memory.zeroFill_ok _ _ _ _ hwbuf⟩, rfl, rfl, hhung,
      ⟨hwork, rfl⟩, hbad, fun _ => ⟨hempty, rfl⟩, Nat.zero_le _, by
        show Memory.below (s.result.out.zeroFill 0 s.cap) _
        rw [hempty]
        exact nofun⟩

end Sys2Proof.Machine
end

section
/-! Every step keeps the invariant: first the turn of the Orchestrator phase by phase, then the other events. -/

namespace Sys2Proof.Machine

section
variable {s t : State}

/-! ### What the invariant gives a phase step -/

theorem State.Inv.wbuf_ok (h : s.Inv) : s.work.wbuf.ok s.cap := by
  obtain ⟨-, -, -, -, hwbuf⟩ := h.spaces
  exact hwbuf

theorem State.Framed.tagLen_le (h : s.Framed) : s.host.tagLen.toNat ≤ 16 := by
  obtain ⟨-, ht, -⟩ := h.args
  exact (legalTagLen_le ((legalTagLen_iff _).mp ht)).2

/-- The frame's length passes the stage-boundary check of the MAC (R215). -/
theorem State.Framed.frameLen_mac (h : s.Framed)
    (hlen : s.work.wbufLen.toNat = s.work.payloadOffset.toNat + s.work.ppad.toNat) :
    s.work.wbufLen.toNat % 16 = 0 ∧ 16 ≤ s.work.wbufLen.toNat ∧ s.work.wbufLen.toNat ≤ s.cap := by
  obtain ⟨hpo, haad, hpp, -, -, hcap, -⟩ := h.layout
  omega

/-- The received tag lies behind the payload, inside CAP (R164). -/
theorem State.Framed.tag_inside (h : s.Framed) (hdec : s.isEnc = false) :
    s.work.payloadOffset.toNat + s.work.plen.toNat + s.host.tagLen.toNat ≤ s.cap := by
  obtain ⟨-, -, -, hlen, hplen, -⟩ := h.args
  obtain ⟨-, -, -, -, -, -, hinput, -⟩ := h.layout
  have hle := hlen hdec
  have hin := hinput hdec
  have hpayload := toNat_payloadLen hlen
  rw [← hplen, hdec, if_neg Bool.false_ne_true] at hpayload
  omega

theorem State.Framed.payload_inside (h : s.Framed) : s.work.payloadOffset.toNat + s.work.plen.toNat ≤ s.cap := by
  obtain ⟨-, -, -, hle, -, hcap, -⟩ := h.layout
  omega

/-- Ciphertext and tag fit OUT, since B0 and the payload fit WBUF. -/
theorem State.Framed.output_fits (h : s.Framed) : s.work.plen.toNat + s.host.tagLen.toNat ≤ s.cap := by
  have ht := h.tagLen_le
  obtain ⟨hpo, -, -, hle, -, hcap, -⟩ := h.layout
  omega

theorem State.Framed.paddingFits (h : s.Framed) : s.paddingFits := by
  obtain ⟨-, -, -, hle, -, hcap, -⟩ := h.layout
  exact ⟨hle, .inr hcap⟩

/-- Anything that a framed command's step may write on the way to a raise keeps it running up to the raise. -/
theorem State.Inv.raise {e : CcmError} (h : s.Inv) (hp : s.ctl.phase.beforeEmit = true) (ht : s.Leads t)
    (he : e ≠ .badState) : (t.failureEntry e).Inv :=
  (((h.running hp).leads ht).failureEntry he).inv

/-! ### The phases -/

theorem validateArgs_keeps_inv (h : s.Inv) (hp : s.ctl.phase = .validateArgs) (hexec : exec .validateArgs s = .next t) :
    t.Inv := by
  have hbefore : s.ctl.phase.beforeEmit = true := by rw [hp]; rfl
  rw [exec_validateArgs] at hexec
  by_cases hlegal : s.legalArgs
  · rw [checkArgs_of_legal hlegal] at hexec
    cases hfits : lengthFits (15 - s.host.nonceLen.toNat) s.payloadLen with
    | false =>
      rw [if_pos hfits] at hexec
      cases hexec
      exact h.raise hbefore ⟨rfl, h.wbuf_ok⟩ nofun
    | true =>
      rw [if_neg (by simp [hfits])] at hexec
      cases hexec
      obtain ⟨hr, ht, hn, hlen⟩ := hlegal
      have hq : (BitVec.ofNat 4 (15 - s.host.nonceLen.toNat)).toNat = 15 - s.host.nonceLen.toNat := by
        rw [BitVec.toNat_ofNat]
        omega
      have hleads : s.Leads (s.setPayload.goto .composeFrame) := ⟨rfl, h.wbuf_ok⟩
      exact ((h.running hbefore).leads hleads).inv_of_composeFrame rfl ⟨hr, ht, hn, hlen, rfl, hfits, hq⟩
  · rw [checkArgs_of_not_legal hlegal] at hexec
    cases hexec
    exact h.raise hbefore ⟨rfl, h.wbuf_ok⟩ nofun

theorem FrameWritten.plen {w : Working} (h : FrameWritten s w) : w.plen = s.work.plen := by rw [h.rest]

theorem FrameWritten.q {w : Working} (h : FrameWritten s w) : w.q = s.work.q := by rw [h.rest]

/-- COMPOSE establishes the layout of R168. -/
theorem FrameWritten.framed {w : Working} (h : FrameWritten s w) (hargs : s.argsOk) (hfit : s.fits) (c : Call)
    (out : Block) : State.Framed (State.goto .tagPrepare { s.issue c with work := w.afterCall s.msg out }) := by
  obtain ⟨hframe, hinput⟩ := hfit
  obtain ⟨hr, ht, hn, hlen, hplen, hfits, hq⟩ := hargs
  have haad := h.aadPaddedLen
  have hpo := h.payloadOffset
  have hpp := h.ppad
  have hwl := h.wbufLen
  have hregion := length_padTo16 ((encodeAadLen s.host.aadLen).1 ++ s.host.aad.readBytes 0 s.host.aadLen.toNat)
  rw [← msg_aadRegion] at hregion
  have hpad := length_padTo16 s.msg.payload
  have hpayload : s.msg.payload.length = s.work.plen.toNat := Memory.length_readBytes ..
  rw [length_frame] at hframe
  rw [length_header] at hpo hframe hinput
  rw [List.length_append, length_header] at hwl
  refine ⟨rfl, ⟨hr, ht, hn, hlen, h.plen.trans hplen, ?_, ?_⟩, ⟨?_, ?_, ?_, ?_, ?_, ?_, fun hdec => ?_, rfl⟩,
    fun hpath => ?_, fun _ hdec => ?_, nofun, nofun, nofun⟩
  · show lengthFits _ w.plen = true
    rwa [h.plen]
  · show w.q.toNat = _
    rwa [h.q]
  · show w.payloadOffset.toNat = 16 + w.aadPaddedLen.toNat
    omega
  · show w.aadPaddedLen.toNat % 16 = 0
    omega
  · show w.ppad.toNat % 16 = 0
    omega
  · show w.plen.toNat ≤ w.ppad.toNat
    rw [h.plen]
    omega
  · show w.ppad.toNat < w.plen.toNat + 16
    rw [h.plen]
    omega
  · show w.payloadOffset.toNat + w.ppad.toNat ≤ s.cap
    omega
  · show w.payloadOffset.toNat + s.host.inputLen.toNat ≤ s.cap
    have := hinput hdec
    omega
  · have henc : s.isEnc = true := hpath.resolve_right fun hne => hne rfl
    show w.wbufLen.toNat = w.payloadOffset.toNat + w.ppad.toNat
    rw [State.frameTail, henc, if_pos rfl] at hwl
    omega
  · have htail : s.frameTail.length = s.host.inputLen.toNat := by
      rw [State.frameTail, show s.isEnc = false from hdec, if_neg Bool.false_ne_true, Memory.length_readBytes]
    show w.wbufLen.toNat = w.payloadOffset.toNat + s.host.inputLen.toNat
    omega

theorem composeFrame_keeps_inv (h : s.Inv) (hp : s.ctl.phase = .composeFrame) (hexec : exec .composeFrame s = .next t) :
    t.Inv := by
  have hbefore : s.ctl.phase.beforeEmit = true := by rw [hp]; rfl
  have hargs : s.argsOk := h.args (by rw [hp]; rfl)
  obtain ⟨hr, ht, hn, hlen, hplen, hfits, hq⟩ := hargs
  rw [exec_composeFrame] at hexec
  obtain ⟨hfit, w, hw, hsteps⟩ | ⟨-, w, hraise, -, hok⟩ := composeSteps_cases (s := s) ⟨ht, hn, hfits⟩
  · have hwbuf := hw.ok h.wbuf_ok
    rw [hsteps] at hexec
    cases hans : s.nextAnswer s.composeCall with
    | ok out d =>
      rw [composeCounter_ok hn hans] at hexec
      cases hexec
      exact (hw.framed ⟨hr, ht, hn, hlen, hplen, hfits, hq⟩ hfit _ out).inv ((h.running hbefore).leads ⟨rfl, hwbuf⟩)
    | fail =>
      rw [composeCounter_fail hn hans] at hexec
      cases hexec
      exact h.raise hbefore ⟨rfl, hwbuf⟩ nofun
    | noReturn =>
      rw [composeCounter_noReturn hn hans] at hexec
      cases hexec
      refine ((h.running hbefore).leads ⟨rfl, hwbuf⟩).inv_of_composeFrame hp ⟨hr, ht, hn, hlen, hw.plen.trans hplen, ?_, ?_⟩
      · show lengthFits _ w.plen = true
        rwa [hw.plen]
      · show w.q.toNat = _
        rwa [hw.q]
  · rw [hraise] at hexec
    cases hexec
    exact h.raise hbefore ⟨rfl, hok h.wbuf_ok⟩ nofun

/-- A stuck call of a framed command that has written WBUF at most. -/
theorem State.Framed.hang_inv {u : State} (h : s.Framed) (hr : s.Running) (c : Call) (m : Memory) (hm : m.ok s.cap)
    (hu : u = { s with work := { s.work with wbuf := m } }) : (u.issue c).hang.Inv := by
  subst hu
  have hleads : s.Leads (State.hang (State.issue c { s with work := { s.work with wbuf := m } })) := ⟨rfl, hm⟩
  exact (h.hang hleads rfl rfl rfl rfl).inv (hr.leads hleads)

theorem tagPrepareEnc_keeps_inv (h : s.Inv) (hp : s.ctl.phase = .tagPrepare) (henc : s.isEnc = true)
    (hexec : exec .tagPrepareEnc s = .next t) : t.Inv := by
  have hf : s.Framed := h.framed (by rw [hp]; rfl)
  have hbefore : s.ctl.phase.beforeEmit = true := by rw [hp]; rfl
  have hlen := hf.frameLen (.inl henc)
  obtain ⟨h16, hl, hb⟩ := hf.frameLen_mac hlen
  cases hans : s.nextAnswer (s.macCall s.work.wbufLen) with
  | ok mac d =>
    rw [exec_tagPrepareEnc_ok h16 hl hb hf.tagLen_le hans] at hexec
    cases hexec
    have hleads : s.Leads (((s.issue (s.macCall s.work.wbufLen)).setRawTag (s.cut mac)).goto .cipherPayload) :=
      ⟨rfl, h.wbuf_ok⟩
    exact (hf.goto hleads rfl rfl nofun hlen nofun nofun nofun).inv ((h.running hbefore).leads hleads)
  | fail =>
    obtain ⟨-, -, hphase⟩ := exec_of_requestMac_raised (requestMac_fail h16 hl hb hans)
    rw [hphase rfl] at hexec
    cases hexec
    exact h.raise hbefore ⟨rfl, h.wbuf_ok⟩ nofun
  | noReturn =>
    obtain ⟨-, -, hphase⟩ := exec_of_requestMac_stuck (requestMac_noReturn h16 hl hb hans)
    rw [hphase rfl] at hexec
    cases hexec
    exact hf.hang_inv (h.running hbefore) _ s.work.wbuf h.wbuf_ok rfl

theorem tagPrepareDec_keeps_inv (h : s.Inv) (hp : s.ctl.phase = .tagPrepare) (hdec : s.isEnc = false)
    (hexec : exec .tagPrepareDec s = .next t) : t.Inv := by
  have hf : s.Framed := h.framed (by rw [hp]; rfl)
  obtain ⟨-, -, -, -, -, hcap, -⟩ := hf.layout
  obtain ⟨-, -, hword⟩ := cap_bounds s
  have hsum : s.work.payloadOffset.toNat + s.work.ppad.toNat < 2 ^ 32 := by omega
  rw [exec_tagPrepareDec_ok hf.tagLen_le (.inr (hf.tag_inside hdec)) hsum] at hexec
  cases hexec
  have hleads : s.Leads (s.takeCandidate.endFrame.goto .cipherPayload) := ⟨rfl, Memory.zeroFill_ok _ _ _ _ h.wbuf_ok⟩
  exact (hf.goto hleads rfl rfl nofun (BitVec.toNat_add_of_lt hsum) nofun nofun nofun).inv
    ((h.running (by rw [hp]; rfl)).leads hleads)

/-- CIPHER_PAYLOAD goes on to a phase of the command's own path. -/
theorem State.Framed.goto_afterCipher {u : State} (h : s.Framed) (hr : s.Running) (hp : s.ctl.phase = .cipherPayload)
    (hu : s.Leads (u.goto s.afterCipher)) (hw : s.work.SameLayout u.work) (hlen : u.work.wbufLen = s.work.wbufLen) :
    (u.goto s.afterCipher).Inv := by
  have hframe := h.frameLen (.inr (by simp [hp]))
  have hrunning := hr.leads hu
  unfold State.afterCipher at *
  cases henc : s.isEnc <;> rw [henc] at hu hrunning
  · exact (h.goto hu hw rfl nofun (by rw [← hframe, ← hlen]; rfl) nofun (fun _ => henc) nofun).inv hrunning
  · exact (h.goto hu hw rfl nofun (by rw [← hframe, ← hlen]; rfl) (fun _ => henc) nofun nofun).inv hrunning

theorem cipherPayload_keeps_inv (h : s.Inv) (hp : s.ctl.phase = .cipherPayload) (hexec : exec .cipherPayload s = .next t) :
    t.Inv := by
  have hf : s.Framed := h.framed (by rw [hp]; rfl)
  have hbefore : s.ctl.phase.beforeEmit = true := by rw [hp]; rfl
  obtain ⟨-, -, h16, -, -, hb, -⟩ := hf.layout
  by_cases hlen : s.work.ppad = 0
  · rw [exec_cipherPayload_empty hlen] at hexec
    cases hexec
    exact hf.goto_afterCipher (h.running hbefore) hp ⟨rfl, h.wbuf_ok⟩ rfl rfl
  · cases hans : s.nextAnswer (s.ctrCall s.work.payloadOffset s.work.ppad) with
    | ok ctr d =>
      rw [exec_cipherPayload hlen, requestCtr_ok h16 hb hans] at hexec
      cases hexec
      have hwbuf := Memory.writeBytes_ok _ s.work.payloadOffset.toNat (fitBytes s.work.ppad.toNat d) _ h.wbuf_ok
        (by rwa [length_fitBytes])
      exact hf.goto_afterCipher (h.running hbefore) hp ⟨rfl, hwbuf⟩ rfl rfl
    | fail =>
      obtain ⟨-, -, hphase⟩ := exec_of_requestCtr_raised hlen (requestCtr_fail h16 hb hans)
      rw [hphase rfl rfl] at hexec
      cases hexec
      exact h.raise hbefore ⟨rfl, h.wbuf_ok⟩ nofun
    | noReturn =>
      obtain ⟨-, -, hphase⟩ := exec_of_requestCtr_stuck hlen (requestCtr_noReturn h16 hb hans)
      rw [hphase rfl rfl] at hexec
      cases hexec
      exact hf.hang_inv (h.running hbefore) _ s.work.wbuf h.wbuf_ok rfl

theorem tagFinalize_keeps_inv (h : s.Inv) (hp : s.ctl.phase = .tagFinalize) (hexec : exec .tagFinalize s = .next t) :
    t.Inv := by
  have hf : s.Framed := h.framed (by rw [hp]; rfl)
  have henc := hf.finalize_enc hp
  rw [exec_tagFinalize hf.tagLen_le] at hexec
  cases hexec
  have hleads : s.Leads (State.goto .emitResult { s with work := { s.work with mtag := fit 16 s.maskedTag } }) :=
    ⟨rfl, h.wbuf_ok⟩
  exact (hf.goto hleads rfl rfl nofun (hf.frameLen (.inl henc)) nofun nofun
    fun _ hdec => absurd (henc.symm.trans hdec) nofun).inv ((h.running (by rw [hp]; rfl)).leads hleads)

theorem tagVerify_keeps_inv (h : s.Inv) (hp : s.ctl.phase = .tagVerify) (hexec : exec .tagVerify s = .next t) : t.Inv := by
  have hf : s.Framed := h.framed (by rw [hp]; rfl)
  have hbefore : s.ctl.phase.beforeEmit = true := by rw [hp]; rfl
  have hlen := hf.frameLen (.inr (by simp [hp]))
  obtain ⟨h16, hl, hb⟩ := hf.frameLen_mac hlen
  have hwbuf : s.zeroPadding.work.wbuf.ok s.cap := Memory.zeroFill_ok _ _ _ _ h.wbuf_ok
  cases hans : s.zeroPadding.nextAnswer (s.zeroPadding.macCall s.work.wbufLen) with
  | ok mac d =>
    rw [exec_tagVerify_ok hf.paddingFits h16 hl hb hf.tagLen_le hans] at hexec
    split at hexec
    · cases hexec
      have hleads : s.Leads (((s.zeroPadding.issue (s.zeroPadding.macCall s.work.wbufLen)).settled (s.cut mac)
        true).goto .emitResult) := ⟨rfl, hwbuf⟩
      exact (hf.goto hleads rfl rfl nofun hlen nofun nofun fun _ _ => rfl).inv ((h.running hbefore).leads hleads)
    · cases hexec
      exact h.raise hbefore ⟨rfl, hwbuf⟩ nofun
  | fail =>
    rw [exec_tagVerify_of_raised hf.paddingFits
      (computeTag_of_raised (requestMac_fail (s := s.zeroPadding) h16 hl hb hans))] at hexec
    cases hexec
    exact h.raise hbefore ⟨rfl, hwbuf⟩ nofun
  | noReturn =>
    rw [exec_tagVerify_of_stuck hf.paddingFits
      (computeTag_of_stuck (requestMac_noReturn (s := s.zeroPadding) h16 hl hb hans))] at hexec
    cases hexec
    exact hf.hang_inv (h.running hbefore) _ s.zeroPadding.work.wbuf hwbuf rfl

theorem emitResultEnc_keeps_inv (h : s.Inv) (hp : s.ctl.phase = .emitResult) (hexec : exec .emitResultEnc s = .next t) :
    t.Inv := by
  have hf : s.Framed := h.framed (by rw [hp]; rfl)
  have ht := hf.tagLen_le
  have hout := hf.output_fits
  rw [exec_emitResultEnc ht (.inr hf.payload_inside) hout] at hexec
  cases hexec
  have hsum := toNat_add_of_le_cap hout
  exact ((h.running (by rw [hp]; rfl)).emit ((length_wireBytes ht).trans hsum.symm) (hsum.trans_le hout)).inv

theorem emitResultDec_keeps_inv (h : s.Inv) (hp : s.ctl.phase = .emitResult) (hexec : exec .emitResultDec s = .next t) :
    t.Inv := by
  have hf : s.Framed := h.framed (by rw [hp]; rfl)
  have hpayload := hf.payload_inside
  rw [exec_emitResultDec (.inr hpayload)] at hexec
  cases hexec
  exact ((h.running (by rw [hp]; rfl)).emit (length_payloadBytes s) (by omega)).inv

theorem released_not_badState (h : s.result.err ≠ some .badState) : s.released.result.err ≠ some .badState := by
  unfold State.released
  simp only
  split
  · nofun
  · exact h

theorem cleanup_keeps_inv (h : s.Inv) (hp : s.ctl.phase = .cleanup) (hhung : s.hung = false)
    (hexec : exec .cleanup s = .next t) : t.Inv := by
  have he := h.ending hp
  by_cases hreturns : (s.work.keyUsed = false ∨ s.keepKey = true) ∨ s.nextAnswer s.eraseCall ≠ .noReturn
  · rw [exec_cleanup_returns hreturns] at hexec
    cases hexec
    exact (resting_concluded (s := s.released) he.spaces hhung (released_not_badState he.not_badState) he.outLen_le
      he.out_tail).inv
  · obtain ⟨hused, hkeep, hno⟩ : s.work.keyUsed = true ∧ s.keepKey = false ∧ s.nextAnswer s.eraseCall = .noReturn := by
      simpa [and_assoc] using hreturns
    rw [exec_cleanup, releaseKey_erase hused hkeep, requestErase_noReturn hno, Run.finish_stuck] at hexec
    cases hexec
    exact State.Ending.inv
      ⟨he.spaces, he.phase, he.busy, he.done, he.not_badState, he.no_output, he.outLen_le, he.out_tail⟩

/-- The turn of the Orchestrator keeps the invariant, in every phase. -/
theorem turn_keeps_inv (h : s.Inv) (hhung : s.hung = false) (hexec : exec s.phaseInstr s = .next t) : t.Inv := by
  unfold State.phaseInstr at hexec
  cases hp : s.ctl.phase <;> rw [hp] at hexec
  case idle =>
    cases hexec
    exact h
  case validateArgs => exact validateArgs_keeps_inv h hp hexec
  case composeFrame => exact composeFrame_keeps_inv h hp hexec
  case tagPrepare =>
    cases henc : s.isEnc <;> rw [henc] at hexec
    · exact tagPrepareDec_keeps_inv h hp henc hexec
    · exact tagPrepareEnc_keeps_inv h hp henc hexec
  case cipherPayload => exact cipherPayload_keeps_inv h hp hexec
  case tagFinalize => exact tagFinalize_keeps_inv h hp hexec
  case tagVerify => exact tagVerify_keeps_inv h hp hexec
  case emitResult =>
    cases henc : s.isEnc <;> rw [henc] at hexec
    · exact emitResultDec_keeps_inv h hp hexec
    · exact emitResultEnc_keeps_inv h hp hexec
  case cleanup => exact cleanup_keeps_inv h hp hhung hexec

/-! ### The other events -/

/-- The invariant does not speak of the environment. -/
theorem State.Inv.with_env (h : s.Inv) (env : Env) : State.Inv { s with env := env } :=
  { h with }

/-- Nor does it speak of REJ. -/
theorem State.Inv.reject (h : s.Inv) : s.reject.Inv :=
  { h with }

/-- START on a state at rest finds OUT inside CAP, so it empties it, and the working registers zero (R244). -/
theorem State.Inv.start (h : s.Inv) (hidle : s.result.busy = false) (w : Word) : (s.start w).Inv := by
  have hrest := h.resting_of_idle hidle
  obtain ⟨hwork, -⟩ := hrest.zero
  obtain ⟨hnonce, haad, hinp, hout, hwbuf⟩ := h.spaces
  have hempty : (s.start w).result.out = [] := Memory.zeroFill_all _ _ hout.2
  refine State.Running.inv_of_validateArgs ⟨⟨hnonce, haad, hinp, ?_, hwbuf⟩, rfl, rfl, rfl, hempty, rfl⟩ rfl ?_
  · rw [hempty]
    exact Memory.nil_ok _
  · rw [start_work, hwork]
    rfl

/-- A store into host-owned state while idle. -/
theorem State.Inv.store (h : s.Inv) (hidle : s.result.busy = false) {host : HostOwned} (hn : host.nonce.ok 13)
    (ha : host.aad.ok s.cap) (hi : host.inp.ok s.cap) : State.Inv { s with host := host } := by
  have hrest := h.resting_of_idle hidle
  obtain ⟨-, -, -, hout, hwbuf⟩ := h.spaces
  exact State.Resting.inv { hrest with spaces := ⟨hn, ha, hi, hout, hwbuf⟩ }

theorem State.Inv.storeReg (h : s.Inv) (hidle : s.result.busy = false) (reg v : Word) :
    State.Inv { s with host := s.host.writeReg reg v } := by
  obtain ⟨hn, ha, hi, -⟩ := h.spaces
  obtain ⟨hnonce, haad, hinp⟩ := writeReg_spaces s.host reg v
  refine h.store hidle ?_ ?_ ?_
  · rwa [hnonce]
  · rwa [haad]
  · rwa [hinp]

theorem State.Inv.storeByte (h : s.Inv) (hidle : s.result.busy = false) {S : Space} {x : Nat} (hx : x < s.capacity S)
    (v : Byte) : (s.setHostByte S x v).Inv := by
  obtain ⟨hn, ha, hi, -⟩ := h.spaces
  cases S with
  | nonce => exact h.store hidle (Memory.set_ok _ _ _ _ hn hx) ha hi
  | aad => exact h.store hidle hn (Memory.set_ok _ _ _ _ ha hx) hi
  | inp => exact h.store hidle hn ha (Memory.set_ok _ _ _ _ hi hx)
  | out => exact h
  | wbuf => exact h

theorem EventStep.keeps_inv {e : Event} (hstep : EventStep s e t) (h : s.Inv) : t.Inv := by
  cases hstep with
  | turn hhung hexec _ => exact turn_keeps_inv h hhung hexec
  | stands => exact h
  | leaves _ env => exact h.with_env env
  | drops => exact h.reject
  | starts hidle => exact h.start hidle _
  | storesReg hidle => exact h.storeReg hidle _ _
  | storesByte hidle hoff => exact h.storeByte hidle hoff _
  | resets => exact (resting_reset s.capUnits s.env).inv

end

/-- Settles O53: the taking of the event leaves the block alone, and every effect of an event keeps the invariant. -/
theorem stepKeepsInvariant : Obligations.StepKeepsInvariant := fun _ _ h hstep =>
  (eventStep_of_step hstep).keeps_inv (h.with_env _)

end Sys2Proof.Machine
end

section
/-! Byte strings in WBUF and the reference CTR mode (R113, R115, R261): what a byte space holds as one string, and that
deciphering undoes enciphering under padding and cutting. -/

namespace Sys2Proof.Machine

/-! ### A byte space that holds a string -/

/-- The space reads as the string from offset 0, and as zero past its end. -/
def Memory.Holds (m : Memory) (l : List Byte) : Prop := ∀ a, m.get a = l.getD a 0

section
variable {m : Memory} {k l d : List Byte}

/-- Two strings of one length with the same bytes. -/
theorem eq_of_getD_eq {a b : List Byte} (hlen : a.length = b.length) (h : ∀ i, i < a.length → a.getD i 0 = b.getD i 0) :
    a = b := by
  refine List.ext_getElem hlen fun i h1 h2 => ?_
  have := h i h1
  rwa [List.getD_eq_getElem _ _ h1, List.getD_eq_getElem _ _ h2] at this

/-- A read of the space: the string from there on, with zeros past its end. -/
theorem Memory.Holds.readBytes (h : m.Holds (k ++ l)) (n : Nat) : m.readBytes k.length n = fitBytes n l := by
  refine eq_of_getD_eq (by rw [Memory.length_readBytes, length_fitBytes]) fun i hi => ?_
  rw [Memory.length_readBytes] at hi
  rw [Memory.getD_readBytes, if_pos hi, getD_fitBytes, if_pos hi, h, getD_append', if_neg (by omega),
    Nat.add_sub_cancel_left]

/-- A read of the whole string. -/
theorem Memory.Holds.read_all (h : m.Holds l) : m.readBytes 0 l.length = l :=
  (h.readBytes (k := []) _).trans (fitBytes_of_length rfl)

/-- A write behind the first part replaces the second part, where it is at least as long. -/
theorem Memory.Holds.writeBytes (h : m.Holds (k ++ l)) (hd : l.length ≤ d.length) :
    (m.writeBytes k.length d).Holds (k ++ d) := by
  intro a
  rw [Memory.get_writeBytes, h, getD_append', getD_append']
  by_cases hk : a < k.length
  · rw [if_neg (by omega), if_pos hk, if_pos hk]
  · rw [if_neg hk, if_neg hk]
    by_cases hend : a < k.length + d.length
    · rw [if_pos (by omega)]
    · rw [if_neg (by omega), getD_of_length_le (by omega), getD_of_length_le (by omega)]

/-- A zero fill over the second part leaves the first. -/
theorem Memory.Holds.zeroFill (h : m.Holds (k ++ l)) {n : Nat} (hn : l.length ≤ n) : (m.zeroFill k.length n).Holds k := by
  intro a
  rw [Memory.get_zeroFill, h, getD_append']
  by_cases hk : a < k.length
  · rw [if_neg (by omega), if_pos hk]
  · rw [if_neg hk, getD_of_length_le (l := k) (by omega)]
    split
    · rfl
    · exact getD_of_length_le (by omega)

end

/-! ### Padding and cutting -/

/-- Padding is the fit to the padded length. -/
theorem fitBytes_padTo16 (l : List Byte) : fitBytes (padTo16 l).length l = padTo16 l := by
  refine eq_of_getD_eq (length_fitBytes _ _) fun i hi => ?_
  rw [length_fitBytes] at hi
  rw [getD_fitBytes, if_pos hi, getD_padTo16]

theorem take_padTo16 (l : List Byte) : (padTo16 l).take l.length = l := List.take_left' rfl

/-- A tag register cut to the length of the tag in it. -/
theorem take_fit {t : List Byte} {n : Nat} (h : t.length = n) (hn : n ≤ 16) : (fit 16 t).toList.take n = t := by
  rw [toList_fit, fitBytes, List.take_take, Nat.min_eq_left hn, List.take_left' h]

theorem length_padTo16_congr {k l : List Byte} (h : k.length = l.length) : (padTo16 k).length = (padTo16 l).length := by
  have hk := length_padTo16 k
  have hl := length_padTo16 l
  omega

/-- A fit to at most the length is a cut. -/
theorem fitBytes_eq_take {l : List Byte} {n : Nat} (h : n ≤ l.length) : fitBytes n l = l.take n := by
  rw [fitBytes, List.take_append_of_le_length h]

/-- The zeros of the padding read like those past the string's end. -/
theorem Memory.holds_padTo16 {m : Memory} {k l : List Byte} : m.Holds (k ++ padTo16 l) ↔ m.Holds (k ++ l) :=
  forall_congr' fun a => by rw [getD_append', getD_append', getD_padTo16]

/-! ### Masking reads tag_len bytes -/

theorem xorMask_take (t : List Byte) (s0 : Block) (n : Nat) : xorMask (t.take n) s0 n = xorMask t s0 n := by
  refine List.map_congr_left fun i hi => ?_
  rw [getD_take, if_pos (List.mem_range.mp hi)]

/-! ### The reference CTR mode -/

/-- The key stream of n blocks from a counter block. -/
def keyStream (E : Block → Block) : Nat → Block → List Byte
  | 0, _ => []
  | n + 1, c => (E c).toList ++ keyStream E n (nextCounter c)

theorem length_keyStream (E : Block → Block) (n : Nat) (c : Block) : (keyStream E n c).length = 16 * n := by
  induction n generalizing c with
  | zero => rfl
  | succ n ih =>
    rw [keyStream, List.length_append, Vector.length_toList, ih]
    omega

/-- CTR mode is the combination with the key stream. -/
theorem referenceCtr_eq_xorBytes (E : Block → Block) {n : Nat} (c : Block) {buf : List Byte} (h : buf.length = 16 * n) :
    (referenceCtr E n c buf).1 = xorBytes buf (keyStream E n c) := by
  induction n generalizing c buf with
  | zero =>
    rw [List.eq_nil_of_length_eq_zero h]
    rfl
  | succ n ih =>
    have hrest : (buf.drop 16).length = 16 * n := by
      rw [List.length_drop]
      omega
    have hblock : (buf.take 16).length = (E c).toList.length := by
      rw [List.length_take, Vector.length_toList]
      omega
    calc (referenceCtr E (n + 1) c buf).1
        = xorBytes (buf.take 16) (E c).toList ++ (referenceCtr E n (nextCounter c) (buf.drop 16)).1 := rfl
      _ = xorBytes (buf.take 16) (E c).toList ++ xorBytes (buf.drop 16) (keyStream E n (nextCounter c)) := by rw [ih _ hrest]
      _ = xorBytes (buf.take 16 ++ buf.drop 16) ((E c).toList ++ keyStream E n (nextCounter c)) :=
          (List.zipWith_append hblock).symm
      _ = xorBytes buf (keyStream E (n + 1) c) := by rw [List.take_append_drop, keyStream]

theorem length_xorBytes {a b : List Byte} (h : a.length ≤ b.length) : (xorBytes a b).length = a.length := by
  rw [xorBytes, List.length_zipWith, Nat.min_eq_left h]

theorem xorBytes_xorBytes {a b : List Byte} (h : a.length ≤ b.length) : xorBytes (xorBytes a b) b = a := by
  refine List.ext_getElem (by rw [length_xorBytes (by rw [length_xorBytes h]; exact h), length_xorBytes h]) fun i h1 h2 => ?_
  simp only [xorBytes, List.getElem_zipWith, BitVec.xor_assoc, BitVec.xor_self, BitVec.xor_zero]

/-- A padded string enciphered, then cut to its length: the string under the key stream. -/
theorem take_referenceCtr_padTo16 (E : Block → Block) (c : Block) (p : List Byte) {n : Nat}
    (hn : (padTo16 p).length = 16 * n) :
    (referenceCtr E n c (padTo16 p)).1.take p.length = xorBytes p ((keyStream E n c).take p.length) := by
  rw [referenceCtr_eq_xorBytes E c hn, xorBytes, List.take_zipWith, take_padTo16]
  rfl

/-- CTR mode undoes itself, though the ciphertext is cut and padded anew in between. -/
theorem take_referenceCtr_twice (E : Block → Block) (c : Block) (p : List Byte) {n : Nat}
    (hn : (padTo16 p).length = 16 * n) :
    (referenceCtr E n c (padTo16 ((referenceCtr E n c (padTo16 p)).1.take p.length))).1.take p.length = p := by
  have hpad := length_padTo16 p
  have hstream : ((keyStream E n c).take p.length).length = p.length := by
    rw [List.length_take, length_keyStream]
    omega
  rw [take_referenceCtr_padTo16 E c p hn]
  generalize hct : xorBytes p ((keyStream E n c).take p.length) = ct
  have hlen : ct.length = p.length := by rw [← hct, length_xorBytes (by omega)]
  rw [← hlen, take_referenceCtr_padTo16 E c ct (by rw [length_padTo16_congr hlen, hn]), hlen, ← hct,
    xorBytes_xorBytes (by omega)]

theorem length_referenceCtr (E : Block → Block) {n : Nat} (c : Block) {buf : List Byte} (h : buf.length = 16 * n) :
    (referenceCtr E n c buf).1.length = 16 * n := by
  rw [referenceCtr_eq_xorBytes E c h, length_xorBytes (by rw [length_keyStream, h]), h]

end Sys2Proof.Machine
end

section
/-! A whole command over an Engine of the reference contracts (R115, R116, R216, R217): START and the seven phase steps, each
as one equation between the states of a running command. -/

namespace Sys2Proof.Machine

/-! ### The states of a running command -/

/-- The command w of the host state s in phase p: its working registers, the calls it has made, the answers to come. -/
def State.command (s : State) (w : Word) (p : Phase) (v : Working) (cs : List Call) (as : List Answer) : State where
  capUnits := s.capUnits
  host := s.host
  result := { busy := true, done := false, rej := false, err := none, outLen := 0, out := [] }
  ctl := { phase := p, cmdLatch := w }
  work := v
  hung := false
  env := { events := [], answers := as, calls := s.env.calls ++ cs, resp := s.env.resp }

theorem core_run_succ {M : Host.Core} {s t : M.State} (h : M.step s = .next t) (n : Nat) : M.run (n + 1) s = M.run n t := by
  rw [Host.Core.run, h]

theorem run_of_step {s t : State} (h : step s = .next t) (n : Nat) :
    Sys2Proof.core.run (n + 1) s = Sys2Proof.core.run n t :=
  core_run_succ (M := Sys2Proof.core) h n

section
variable {s : State} {w : Word} {p : Phase} {v : Working} {cs : List Call} {as : List Answer}

theorem command_issue (a : Answer) (c : Call) :
    (s.command w p v cs (a :: as)).issue c = s.command w p v (cs ++ [c]) as := by
  simp [State.command, State.issue, List.append_assoc]

theorem step_command : step (s.command w p v cs as) = exec (p.instr (w.getLsbD 1)) (s.command w p v cs as) :=
  runEvent_tick_of_not_hung rfl

/-- START from a state at rest (R244). -/
theorem step_start (h : s.Inv) (hidle : s.ctl.phase = .idle) (hev : s.env.events = [.hwr 0 w]) (hgo : w.getLsbD 0 = true) :
    step s = .next (s.command w .validateArgs Working.zero [] s.env.answers) := by
  have hbusy : s.result.busy = false := by
    rw [Bool.eq_false_iff, ne_eq, h.busy_iff, not_not]
    exact hidle
  have hrest := h.resting_of_idle hbusy
  have hout : s.result.out.zeroFill 0 s.cap = [] := by
    obtain ⟨-, -, -, hout, -⟩ := h.spaces
    exact Memory.zeroFill_all _ _ hout.2
  have hnext : s.nextEvent = .hwr 0 w := by rw [State.nextEvent, hev]
  have hstart : step s = .next (s.takeEvent.start w) := by
    rw [step_of_nextEvent hnext]
    show exec (decodeCmd w) s.takeEvent = _
    rw [exec_decodeCmd, cmdWrite_of_go_set (s := s.takeEvent) hbusy hgo]
  rw [hstart]
  unfold State.start State.command
  simp only [takeEvent_result, takeEvent_cap, takeEvent_work, takeEvent_env, takeEvent_hung, hout, hrest.zero.1, hrest.hung,
    hev, List.tail_cons, List.append_nil]
  rfl

/-- VALIDATE_ARGS with legal parameters (R201). -/
theorem step_validateArgs (hlegal : (s.command w .validateArgs v cs as).legalArgs)
    (hfits : lengthFits (15 - s.host.nonceLen.toNat) (s.command w .validateArgs v cs as).payloadLen = true) :
    step (s.command w .validateArgs v cs as)
      = .next (s.command w .composeFrame (s.command w .validateArgs v cs as).setPayload.work cs as) := by
  rw [step_command]
  show exec .validateArgs _ = _
  rw [exec_validateArgs, checkArgs_of_legal hlegal, if_neg (by rw [Bool.not_eq_false]; exact hfits)]
  rfl

/-- COMPOSE_FRAME with a frame that fits and an answered call (R202). -/
theorem step_composeFrame {out : Block} {d : List Byte}
    (hf : (s.command w .composeFrame v cs (.ok out d :: as)).frameable)
    (hfit : (s.command w .composeFrame v cs (.ok out d :: as)).fits) :
    ∃ v', FrameWritten (s.command w .composeFrame v cs (.ok out d :: as)) v'
      ∧ step (s.command w .composeFrame v cs (.ok out d :: as)) = .next (s.command w .tagPrepare
        (v'.afterCall (s.message v.plen.toNat) out)
        (cs ++ [.ecbEncryptBlock s.host.keyCtx ((s.message v.plen.toNat).ctr 0)]) as) := by
  obtain ⟨v', hv, -, hphase⟩ := exec_compose_ok hf hfit (out := out) (d := d) rfl
  refine ⟨v', hv, ?_⟩
  rw [step_command]
  refine hphase.trans ?_
  rw [command_issue]
  rfl

/-- TAG_PREPARE on encrypt with an answered call (R204). -/
theorem step_tagPrepareEnc {mac : Block} {d : List Byte} (henc : w.getLsbD 1 = true)
    (h : (s.command w .tagPrepare v cs (.ok mac d :: as)).Inv) :
    step (s.command w .tagPrepare v cs (.ok mac d :: as)) = .next (s.command w .cipherPayload
      { v with rawTag := fit 16 (mac.toList.take s.host.tagLen.toNat) }
      (cs ++ [.cbcMac s.host.keyCtx (v.wbuf.readBytes 0 v.wbufLen.toNat) v.wbufLen]) as) := by
  have hf := h.framed rfl
  obtain ⟨h16, hl, hb⟩ := hf.frameLen_mac (hf.frameLen (.inl henc))
  rw [step_command, henc]
  refine (exec_tagPrepareEnc_ok h16 hl hb hf.tagLen_le rfl).trans ?_
  rw [command_issue]
  rfl

/-- TAG_PREPARE on decrypt (R205). -/
theorem step_tagPrepareDec (hdec : w.getLsbD 1 = false) (h : (s.command w .tagPrepare v cs as).Inv) :
    step (s.command w .tagPrepare v cs as) = .next (s.command w .cipherPayload
      { v with
        candTag := fit 16 (xorMask (v.wbuf.readBytes (v.payloadOffset.toNat + v.plen.toNat) s.host.tagLen.toNat) v.s0
          s.host.tagLen.toNat)
        wbuf := v.wbuf.zeroFill (v.payloadOffset.toNat + v.plen.toNat) s.host.tagLen.toNat
        wbufLen := v.payloadOffset + v.ppad } cs as) := by
  have hf := h.framed rfl
  obtain ⟨-, -, -, -, -, hcap, -⟩ := hf.layout
  obtain ⟨-, -, hword⟩ := cap_bounds (s.command w .tagPrepare v cs as)
  rw [step_command, hdec]
  exact exec_tagPrepareDec_ok hf.tagLen_le (.inr (hf.tag_inside hdec)) (by omega)

/-- The calls of CIPHER_PAYLOAD over a payload p: none for an empty one (R191, R206). -/
def ctrCalls (keyCtx : Word) (ctr : Block) (p : List Byte) : List Call :=
  if p = [] then [] else [.ctrEncrypt keyCtx ctr (padTo16 p) (BitVec.ofNat 32 (padTo16 p).length)]

theorem length_padTo16_eq_zero {p : List Byte} : (padTo16 p).length = 0 ↔ p = [] := by
  have hp := length_padTo16 p
  rw [← List.length_eq_zero_iff]
  omega

/-- CIPHER_PAYLOAD over a region that is not empty (R206). -/
theorem step_cipherPayload_call {ctr : Block} {d : List Byte} (hlen : v.ppad ≠ 0)
    (h : (s.command w .cipherPayload v cs (.ok ctr d :: as)).Inv) (hd : d.length = v.ppad.toNat) :
    step (s.command w .cipherPayload v cs (.ok ctr d :: as)) = .next (s.command w
      (if w.getLsbD 1 then .tagFinalize else .tagVerify)
      { v with wbuf := v.wbuf.writeBytes v.payloadOffset.toNat d, ctr := ctr }
      (cs ++ [.ctrEncrypt s.host.keyCtx v.ctr (v.wbuf.readBytes v.payloadOffset.toNat v.ppad.toNat) v.ppad]) as) := by
  obtain ⟨-, -, h16, -, -, hb, -⟩ := (h.framed rfl).layout
  have hpos : 0 < v.ppad.toNat := Nat.pos_of_ne_zero fun h0 => hlen (BitVec.eq_of_toNat_eq h0)
  rw [step_command]
  refine (exec_cipherPayload_ok h16 hpos hb rfl).trans ?_
  rw [command_issue, State.storeCtr, fitBytes_of_length (by exact hd)]
  rfl

theorem step_cipherPayload_empty (hlen : v.ppad = 0) :
    step (s.command w .cipherPayload v cs as)
      = .next (s.command w (if w.getLsbD 1 then .tagFinalize else .tagVerify) v cs as) := by
  rw [step_command]
  exact exec_cipherPayload_empty hlen

/-- CIPHER_PAYLOAD with the payload p behind hd in WBUF, answered by the reference contract (R206, R261). -/
theorem step_cipherPayload {E : Block → Block} {c : Block} {hd x : List Byte}
    (h : (s.command w .cipherPayload v cs ((ctrCalls s.host.keyCtx c x).map (referenceAnswer E) ++ as)).Inv) (hc : v.ctr = c)
    (hpo : v.payloadOffset.toNat = hd.length) (hpp : v.ppad.toNat = (padTo16 x).length) (hwbuf : v.wbuf.Holds (hd ++ x)) :
    ∃ m ctr, m.Holds (hd ++ (referenceCtr E ((padTo16 x).length / 16) c (padTo16 x)).1)
      ∧ step (s.command w .cipherPayload v cs ((ctrCalls s.host.keyCtx c x).map (referenceAnswer E) ++ as))
        = .next (s.command w (if w.getLsbD 1 then .tagFinalize else .tagVerify) { v with wbuf := m, ctr := ctr }
          (cs ++ ctrCalls s.host.keyCtx c x) as) := by
  subst hc
  by_cases hx : x = []
  · subst hx
    refine ⟨v.wbuf, v.ctr, hwbuf, ?_⟩
    rw [ctrCalls, if_pos rfl, List.append_nil]
    exact step_cipherPayload_empty (BitVec.eq_of_toNat_eq hpp)
  · have hne : v.ppad ≠ 0 := fun h0 => hx (length_padTo16_eq_zero.mp (by rw [← hpp, h0]; rfl))
    have hlen : v.ppad = BitVec.ofNat 32 (padTo16 x).length := by
      rw [← hpp, BitVec.ofNat_toNat, BitVec.setWidth_eq]
    have hregion : v.wbuf.readBytes v.payloadOffset.toNat v.ppad.toNat = padTo16 x := by
      rw [hpo, hpp, hwbuf.readBytes, fitBytes_padTo16]
    have hblocks : (padTo16 x).length = 16 * ((padTo16 x).length / 16) := by
      have := length_padTo16 x
      omega
    have hcalls : ctrCalls s.host.keyCtx v.ctr x = [.ctrEncrypt s.host.keyCtx v.ctr (padTo16 x) v.ppad] := by
      rw [ctrCalls, if_neg hx, ← hlen]
    have hdata : (referenceCtr E ((padTo16 x).length / 16) v.ctr (padTo16 x)).1.length = (padTo16 x).length := by
      rw [length_referenceCtr E v.ctr hblocks, ← hblocks]
    rw [hcalls, List.map_singleton, referenceAnswer, hpp, List.singleton_append] at h ⊢
    have hstep := step_cipherPayload_call hne h (hdata.trans hpp.symm)
    rw [hregion, hpo] at hstep
    exact ⟨_, _, hwbuf.writeBytes (by rw [hdata]; exact (length_padTo16 x).2.1), hstep⟩

/-- TAG_FINALIZE (R207). -/
theorem step_tagFinalize {tag : List Byte} (h : (s.command w .tagFinalize v cs as).Inv)
    (htag : xorMask (v.rawTag.toList.take s.host.tagLen.toNat) v.s0 s.host.tagLen.toNat = tag) :
    step (s.command w .tagFinalize v cs as)
      = .next (s.command w .emitResult { v with mtag := fit 16 tag } cs as) := by
  subst htag
  rw [step_command]
  exact exec_tagFinalize (h.framed rfl).tagLen_le

/-- TAG_VERIFY with the tag of the frame in CAND_TAG (R208). -/
theorem step_tagVerify {mac : Block} {d : List Byte} {m : Memory}
    (h : (s.command w .tagVerify v cs (.ok mac d :: as)).Inv)
    (hm : m = v.wbuf.zeroFill (v.payloadOffset.toNat + v.plen.toNat) (v.ppad.toNat - v.plen.toNat))
    (hcand : v.candTag.toList.take s.host.tagLen.toNat = mac.toList.take s.host.tagLen.toNat) :
    step (s.command w .tagVerify v cs (.ok mac d :: as)) = .next (s.command w .emitResult
      { v with wbuf := m, rawTag := fit 16 (mac.toList.take s.host.tagLen.toNat), verifyOk := true }
      (cs ++ [.cbcMac s.host.keyCtx (m.readBytes 0 v.wbufLen.toNat) v.wbufLen]) as) := by
  subst hm
  have hf := h.framed rfl
  obtain ⟨h16, hl, hb⟩ := hf.frameLen_mac (hf.frameLen (.inr nofun))
  rw [step_command]
  refine (exec_tagVerify_ok hf.paddingFits h16 hl hb hf.tagLen_le rfl).trans ?_
  refine (congrArg Host.Outcome.next (if_pos hcand)).trans ?_
  have hpadded : (s.command w .tagVerify v cs (.ok mac d :: as)).zeroPadding = s.command w .tagVerify { v with
      wbuf := v.wbuf.zeroFill (v.payloadOffset.toNat + v.plen.toNat) (v.ppad.toNat - v.plen.toNat) } cs
      (.ok mac d :: as) := rfl
  rw [hpadded, command_issue]
  rfl

/-- EMIT_RESULT on encrypt (R209). -/
theorem step_emitResultEnc (henc : w.getLsbD 1 = true) (h : (s.command w .emitResult v cs as).Inv) :
    step (s.command w .emitResult v cs as) = .next (((s.command w .emitResult v cs as).emit
      (s.command w .emitResult v cs as).wireBytes (v.plen + s.host.tagLen)).goto .cleanup) := by
  have hf := h.framed rfl
  rw [step_command, henc]
  exact exec_emitResultEnc hf.tagLen_le (.inr hf.payload_inside) hf.output_fits

/-- EMIT_RESULT on decrypt (R210). -/
theorem step_emitResultDec (hdec : w.getLsbD 1 = false) (h : (s.command w .emitResult v cs as).Inv) :
    step (s.command w .emitResult v cs as) = .next (((s.command w .emitResult v cs as).emit
      (s.command w .emitResult v cs as).payloadBytes v.plen).goto .cleanup) := by
  rw [step_command, hdec]
  exact exec_emitResultDec (.inr (h.framed rfl).payload_inside)

end

/-! ### CLEANUP of a successful command -/

theorem requestErase_ok {s : State} {b : Block} {d : List Byte} (h : s.nextAnswer s.eraseCall = .ok b d) :
    requestErase s = .value () (s.issue s.eraseCall) := by
  simp only [requestErase, h]

theorem exec_cleanup_kept {s : State} (herr : s.result.err = none) (hkeep : s.keepKey = true) :
    exec .cleanup s = .next s.zeroize.endCommand := by
  rw [exec_cleanup, releaseKey_skip (.inr hkeep), Run.finish_value, concluded_of_success herr]

theorem exec_cleanup_erased {s : State} {b : Block} {d : List Byte} (herr : s.result.err = none)
    (hused : s.work.keyUsed = true) (hkeep : s.keepKey = false) (h : s.nextAnswer s.eraseCall = .ok b d) :
    exec .cleanup s = .next (s.issue s.eraseCall).zeroize.endCommand := by
  rw [exec_cleanup, releaseKey_erase hused hkeep, requestErase_ok h, Run.finish_value,
    concluded_of_success (s := s.issue s.eraseCall) herr]

/-- The erase of CLEANUP: none where the key is kept (R211). -/
def eraseCalls (keep : Bool) (keyCtx : Word) : List Call := if keep then [] else [.keyslotErase keyCtx]

/-- The end of a successful command of s: bs of length n in OUT, the calls made, at rest with DONE. -/
structure Succeeded (s t : State) (bs : List Byte) (n : Word) (cs : List Call) : Prop where
  result : t.result = { busy := false, done := true, rej := false, err := none, outLen := n, out := Memory.writeBytes [] 0 bs }
  phase : t.ctl.phase = .idle
  calls : t.env.calls = s.env.calls ++ cs
  length : bs.length = n.toNat

section
variable {s t : State} {w : Word} {v : Working} {bs : List Byte} {n : Word} {cs : List Call}

/-- The emission and CLEANUP after it, the erase answered by the reference contract (R209 to R214). -/
theorem run_emitted {E : Block → Block} {keep : Bool} {as : List Answer}
    (hemit : step (s.command w .emitResult v cs as)
      = .next (((s.command w .emitResult v cs as).emit bs n).goto .cleanup)) (hlen : bs.length = n.toNat)
    (hused : v.keyUsed = true) (hkeep : w.getLsbD 2 = keep)
    (has : as = (eraseCalls keep s.host.keyCtx).map (referenceAnswer E)) :
    ∃ t, Sys2Proof.core.run 2 (s.command w .emitResult v cs as) = .next t
      ∧ Succeeded s t bs n (cs ++ eraseCalls keep s.host.keyCtx) := by
  have hcleanup : step (((s.command w .emitResult v cs as).emit bs n).goto .cleanup)
      = exec .cleanup (((s.command w .emitResult v cs as).emit bs n).goto .cleanup) := runEvent_tick_of_not_hung rfl
  subst has
  cases keep with
  | true =>
    refine ⟨_, (run_of_step hemit 1).trans (run_of_step (hcleanup.trans (exec_cleanup_kept rfl hkeep)) 0), rfl, rfl, ?_,
      hlen⟩
    show s.env.calls ++ cs = s.env.calls ++ (cs ++ [])
    rw [List.append_nil]
  | false =>
    refine ⟨_, (run_of_step hemit 1).trans
      (run_of_step (hcleanup.trans (exec_cleanup_erased rfl hused hkeep rfl)) 0), rfl, rfl, ?_, hlen⟩
    exact List.append_assoc ..

theorem Succeeded.status (h : Succeeded s t bs n cs) : t.result.status = 2#32 := by
  refine BitVec.eq_of_toNat_eq ?_
  rw [h.result, ResultState.toNat_status]
  rfl

theorem Succeeded.outLen (h : Succeeded s t bs n cs) : t.result.outLen = n := by
  rw [h.result]

theorem Succeeded.readBytes (h : Succeeded s t bs n cs) : t.result.out.readBytes 0 bs.length = bs := by
  rw [h.result]
  exact Memory.readBytes_writeBytes [] 0 bs

theorem Succeeded.get_above (h : Succeeded s t bs n cs) {a : Nat} (ha : bs.length ≤ a) : t.result.out.get a = 0 := by
  rw [h.result]
  show (Memory.writeBytes [] 0 bs).get a = 0
  rw [Memory.get_writeBytes, if_neg (by omega), Memory.get_nil]

end

end Sys2Proof.Machine
end

section
/-! The two whole commands (R115 to R117, R216, R217): what both paths do up to TAG_PREPARE, and each path from there to the
result. -/

namespace Sys2Proof.Machine

/-- What TAG_PREPARE finds in the working registers: the layout of the message μ, its counter and S0, and the frame with
the given tail. -/
structure Laid (v : Working) (μ : Message) (s0 : Block) (tail : List Byte) : Prop where
  plen : v.plen.toNat = μ.payload.length
  offset : v.payloadOffset.toNat = μ.header.length
  ppad : v.ppad.toNat = (padTo16 μ.payload).length
  ctr : v.ctr = μ.ctr 1
  s0 : v.s0 = s0
  used : v.keyUsed = true
  wbuf : v.wbuf.Holds (μ.header ++ tail)

/-- A state at rest about to START the command w with a legal tag and nonce length. -/
structure State.Starts (s : State) (w : Word) (enc keep : Bool) : Prop where
  inv : s.Inv
  idle : s.ctl.phase = .idle
  events : s.env.events = [.hwr 0 w]
  go : w.getLsbD 0 = true
  isEnc : w.getLsbD 1 = enc
  keepKey : w.getLsbD 2 = keep
  reserved : reservedField w = 0
  tagLen : s.host.tagLen.toNat ∈ [4, 6, 8, 10, 12, 14, 16]
  nonceLen_ge : 7 ≤ s.host.nonceLen.toNat
  nonceLen_le : s.host.nonceLen.toNat ≤ 13

section
variable {s : State} {w : Word} {enc keep : Bool} {out : Block} {d : List Byte} {as : List Answer} {plen : Nat} {μ : Message}

/-- START, VALIDATE_ARGS and COMPOSE_FRAME of a command whose payload length q bytes hold and whose frame fits. -/
theorem run_to_tagPrepare (h : s.Starts w enc keep) (hμ : μ = s.message plen)
    (hans : s.env.answers = .ok out d :: as)
    (hshort : enc = false → s.host.tagLen.toNat ≤ s.host.inputLen.toNat)
    (hplen : plen = if enc then s.host.inputLen.toNat else s.host.inputLen.toNat - s.host.tagLen.toNat)
    (hbound : plen < 2 ^ (8 * (15 - s.host.nonceLen.toNat))) (hframe : μ.frame.length ≤ s.cap)
    (hinput : enc = false → μ.header.length + s.host.inputLen.toNat ≤ s.cap) :
    ∃ v, (∀ n, Sys2Proof.core.run (n + 3) s = Sys2Proof.core.run n
        (s.command w .tagPrepare v [.ecbEncryptBlock s.host.keyCtx (μ.ctr 0)] as))
      ∧ (s.command w .tagPrepare v [.ecbEncryptBlock s.host.keyCtx (μ.ctr 0)] as).Inv
      ∧ Laid v μ out (if enc then padTo16 μ.payload
          else s.host.inp.readBytes 0 s.host.inputLen.toNat) := by
  obtain ⟨hinv, hidle, hev, hgo, henc, -, hres, ht, hn7, hn13⟩ := h
  subst henc hμ
  have hstart := step_start hinv hidle hev hgo
  rw [hans] at hstart
  have hlegal : (s.command w .validateArgs Working.zero [] (.ok out d :: as)).legalArgs := by
    refine ⟨?_, (legalTagLen_iff _).mpr ht, (legalNonceLen_iff _).mpr ⟨hn7, hn13⟩, hshort⟩
    show (reservedField w != 0) = false
    rw [hres]
    rfl
  have hpayload : (s.command w .validateArgs Working.zero [] (.ok out d :: as)).payloadLen.toNat = plen :=
    (toNat_payloadLen (s := s.command w .validateArgs Working.zero [] (.ok out d :: as)) hshort).trans hplen.symm
  subst hpayload
  have hvalidate := step_validateArgs hlegal ((lengthFits_iff _ _).mpr hbound)
  obtain ⟨v, hv, hcompose⟩ := step_composeFrame (s := s) (w := w) (cs := []) (as := as) (out := out) (d := d)
    (v := (s.command w .validateArgs Working.zero [] (.ok out d :: as)).setPayload.work)
    (frameable_of ht hn7 hn13 hbound) ⟨hframe, hinput⟩
  have hinv1 := stepKeepsInvariant _ _ hinv hstart
  have hinv2 := stepKeepsInvariant _ _ hinv1 hvalidate
  refine ⟨_, fun n => ?_, stepKeepsInvariant _ _ hinv2 hcompose, ?_⟩
  · rw [run_of_step hstart, run_of_step hvalidate, run_of_step hcompose]
    rfl
  · refine ⟨?_, hv.payloadOffset, hv.ppad, rfl, rfl, rfl, fun a => ?_⟩
    · show v.plen.toNat = _
      rw [hv.plen]
      exact (Memory.length_readBytes ..).symm
    · refine (hv.bytes a).trans ?_
      split
      · rfl
      · next hend => exact (getD_of_length_le (Nat.le_of_not_lt hend)).symm

end

end Sys2Proof.Machine
end

section
/-! The two paths from TAG_PREPARE to the result, and with them the two whole commands (R115 to R117, R216, R217). -/

namespace Sys2Proof.Machine

/-! ### The parts of the wire format -/

/-- The MAC of a message over its frame (R117), before it is masked. -/
def Message.mac (E : Block → Block) (m : Message) : Block :=
  referenceCbc E (m.frame.length / 16) Block.zero m.frame

theorem length_take_mac {E : Block → Block} {m : Message} (hle : m.tagLen.toNat ≤ 16) :
    ((m.mac E).toList.take m.tagLen.toNat).length = m.tagLen.toNat := by
  rw [List.length_take, Vector.length_toList, Nat.min_eq_left hle]

theorem maskedTag_eq (E : Block → Block) (m : Message) :
    m.maskedTag E = xorMask ((m.mac E).toList.take m.tagLen.toNat) (E (m.ctr 0)) m.tagLen.toNat :=
  (xorMask_take ..).symm

theorem length_maskedTag (E : Block → Block) (m : Message) : (m.maskedTag E).length = m.tagLen.toNat :=
  length_xorMask ..

theorem padTo16_blocks (l : List Byte) : (padTo16 l).length = 16 * ((padTo16 l).length / 16) := by
  have := length_padTo16 l
  omega

theorem length_ciphertext (E : Block → Block) (m : Message) : (m.ciphertext E).length = m.payload.length := by
  have := length_padTo16 m.payload
  rw [Message.ciphertext, List.length_take, length_referenceCtr E _ (padTo16_blocks _), ← padTo16_blocks]
  omega

theorem length_wire (E : Block → Block) (m : Message) : (m.wire E).length = m.payload.length + m.tagLen.toNat := by
  rw [Message.wire, List.length_append, length_ciphertext, length_maskedTag]

/-- The message with the ciphertext in the payload's place: what a decrypt command finds in IN. -/
def Message.enciphered (E : Block → Block) (m : Message) : Message := { m with payload := m.ciphertext E }

/-- B0 takes no more of the payload than its length. -/
theorem header_enciphered (E : Block → Block) (m : Message) : (m.enciphered E).header = m.header := by
  have hb0 : (m.enciphered E).b0 = m.b0 := by
    unfold Message.b0 Message.enciphered
    rw [length_ciphertext]
  rw [Message.header, hb0]
  rfl

theorem ofNat_of_toNat {x : Word} {n : Nat} (h : x.toNat = n) : BitVec.ofNat 32 n = x := by
  rw [← h, BitVec.ofNat_toNat, BitVec.setWidth_eq]

section
variable {E : Block → Block} {s : State} {w : Word} {v : Working} {m : Message} {keep : Bool} {cs : List Call} {as : List Answer}

/-! ### The encrypt path -/

/-- TAG_FINALIZE masks the tag that TAG_PREPARE has cut off (R117, R207). -/
theorem xorMask_rawTag (hle : m.tagLen.toNat ≤ 16) :
    xorMask ((fit 16 ((m.mac E).toList.take m.tagLen.toNat)).toList.take m.tagLen.toNat) (E (m.ctr 0)) m.tagLen.toNat
      = m.maskedTag E := by
  rw [maskedTag_eq, take_fit (length_take_mac hle) hle]

/-- EMIT_RESULT with the ciphertext in WBUF and the masked tag in MTAG emits the wire format (R115, R117, R209). -/
theorem step_emitWire (henc : w.getLsbD 1 = true) (h : (s.command w .emitResult v cs as).Inv)
    (htag : s.host.tagLen = m.tagLen) (hplen : v.plen.toNat = m.payload.length)
    (hpo : v.payloadOffset.toNat = m.header.length)
    (hwbuf : v.wbuf.Holds
      (m.header ++ (referenceCtr E ((padTo16 m.payload).length / 16) (m.ctr 1) (padTo16 m.payload)).1))
    (hmtag : v.mtag = fit 16 (m.maskedTag E)) :
    step (s.command w .emitResult v cs as)
      = .next (((s.command w .emitResult v cs as).emit (m.wire E) (v.plen + s.host.tagLen)).goto .cleanup) := by
  have hle : s.host.tagLen.toNat ≤ 16 := (h.framed rfl).tagLen_le
  have hdata := length_referenceCtr E (m.ctr 1) (padTo16_blocks m.payload)
  have hpad := length_padTo16 m.payload
  have hct : (s.command w .emitResult v cs as).payloadBytes = m.ciphertext E := by
    show v.wbuf.readBytes v.payloadOffset.toNat v.plen.toNat = _
    rw [hplen, hpo, hwbuf.readBytes, fitBytes_eq_take (by omega)]
    rfl
  have hmasked : v.mtag.toList.take s.host.tagLen.toNat = m.maskedTag E := by
    rw [hmtag, take_fit (by rw [length_maskedTag, htag]) hle]
  have hwire : (s.command w .emitResult v cs as).wireBytes = m.wire E := by
    rw [State.wireBytes, hct]
    exact congrArg (m.ciphertext E ++ ·) hmasked
  rw [step_emitResultEnc henc h, hwire]

/-- TAG_PREPARE to CLEANUP of an encrypt command over the reference contracts. -/
theorem run_encrypt_from_tagPrepare (henc : w.getLsbD 1 = true) (hkeep : w.getLsbD 2 = keep)
    (htag : s.host.tagLen = m.tagLen) (hl : Laid v m (E (m.ctr 0)) (padTo16 m.payload))
    (h : (s.command w .tagPrepare v cs (.ok (m.mac E) [] :: ((ctrCalls s.host.keyCtx (m.ctr 1) m.payload).map
      (referenceAnswer E) ++ (eraseCalls keep s.host.keyCtx).map (referenceAnswer E)))).Inv) :
    ∃ t, Sys2Proof.core.run 5 (s.command w .tagPrepare v cs (.ok (m.mac E) [] :: ((ctrCalls s.host.keyCtx (m.ctr 1)
        m.payload).map (referenceAnswer E) ++ (eraseCalls keep s.host.keyCtx).map (referenceAnswer E)))) = .next t
      ∧ Succeeded s t (m.wire E) (v.plen + s.host.tagLen)
          (cs ++ [.cbcMac s.host.keyCtx m.frame (BitVec.ofNat 32 m.frame.length)]
            ++ ctrCalls s.host.keyCtx (m.ctr 1) m.payload ++ eraseCalls keep s.host.keyCtx) := by
  have hf := h.framed rfl
  have hle : m.tagLen.toNat ≤ 16 := by rw [← htag]; exact hf.tagLen_le
  have hlen : v.wbufLen.toNat = m.frame.length := by
    rw [length_frame, ← hl.offset, ← hl.ppad]
    exact hf.frameLen (.inl henc)
  have hread : v.wbuf.readBytes 0 v.wbufLen.toNat = m.frame := by
    rw [hlen]
    exact Memory.Holds.read_all hl.wbuf
  have hmac := step_tagPrepareEnc henc h
  rw [hread, ← ofNat_of_toNat hlen, htag] at hmac
  have hinv1 := stepKeepsInvariant _ _ h hmac
  obtain ⟨u, ctr, hu, hcipher⟩ := step_cipherPayload (E := E) hinv1 hl.ctr hl.offset hl.ppad
    (Memory.holds_padTo16.mp hl.wbuf)
  rw [henc, if_pos rfl] at hcipher
  have hinv2 := stepKeepsInvariant _ _ hinv1 hcipher
  have hmask := step_tagFinalize (tag := m.maskedTag E) hinv2 (by rw [htag, hl.s0]; exact xorMask_rawTag hle)
  have hemit := step_emitWire henc (stepKeepsInvariant _ _ hinv2 hmask) htag hl.plen hl.offset hu rfl
  have hwire : (m.wire E).length = (v.plen + s.host.tagLen).toNat := by
    rw [length_wire, ← hl.plen, ← htag]
    exact (toNat_add_of_le_cap hf.output_fits).symm
  obtain ⟨t, hrun, ht⟩ := run_emitted hemit hwire hl.used hkeep rfl
  exact ⟨t, (run_of_step hmac 4).trans ((run_of_step hcipher 3).trans ((run_of_step hmask 2).trans hrun)), ht⟩

/-! ### The decrypt path -/

/-- What TAG_PREPARE takes for the candidate is the cleartext tag: the mask meets S0 a second time (R205). -/
theorem candTag_eq (hle : m.tagLen.toNat ≤ 16) :
    (fit 16 (xorMask (m.maskedTag E) (E (m.ctr 0)) m.tagLen.toNat)).toList.take m.tagLen.toNat
      = (m.mac E).toList.take m.tagLen.toNat := by
  rw [take_fit (length_xorMask ..) hle, maskedTag_eq, xorMask_xorMask _ (length_take_mac hle)]

/-- CIPHER_PAYLOAD and the zeroed padding leave the payload where the ciphertext was (R206, R208). -/
theorem holds_deciphered {u : Memory} (hu : u.Holds (m.header
      ++ (referenceCtr E ((padTo16 (m.ciphertext E)).length / 16) (m.ctr 1) (padTo16 (m.ciphertext E))).1))
    {x n : Nat} (hx : x = (m.header ++ m.payload).length) (hn : (padTo16 m.payload).length - m.payload.length ≤ n) :
    (u.zeroFill x n).Holds (m.header ++ m.payload) := by
  have hpad : (padTo16 (m.ciphertext E)).length = (padTo16 m.payload).length := length_padTo16_congr (length_ciphertext E m)
  have hdata := length_referenceCtr E (m.ctr 1) (hpad.trans (padTo16_blocks m.payload))
  have hplain := take_referenceCtr_twice E (m.ctr 1) m.payload (padTo16_blocks m.payload)
  rw [← Message.ciphertext] at hplain
  rw [← padTo16_blocks] at hdata
  rw [hpad] at hu
  generalize (referenceCtr E _ _ _).1 = d at hu hdata hplain
  rw [← List.take_append_drop m.payload.length d, hplain, ← List.append_assoc] at hu
  subst hx
  refine hu.zeroFill ?_
  rw [List.length_drop]
  omega

/-- EMIT_RESULT on decrypt emits the payload behind the header (R116, R210). -/
theorem step_emitPayload {hd p : List Byte} (hdec : w.getLsbD 1 = false) (h : (s.command w .emitResult v cs as).Inv)
    (hplen : v.plen.toNat = p.length) (hpo : v.payloadOffset.toNat = hd.length) (hwbuf : v.wbuf.Holds (hd ++ p)) :
    step (s.command w .emitResult v cs as)
      = .next (((s.command w .emitResult v cs as).emit p v.plen).goto .cleanup) := by
  have hp : (s.command w .emitResult v cs as).payloadBytes = p := by
    show v.wbuf.readBytes v.payloadOffset.toNat v.plen.toNat = _
    rw [hplen, hpo, hwbuf.readBytes, fitBytes_of_length rfl]
  rw [step_emitResultDec hdec h, hp]

/-- TAG_PREPARE to CLEANUP of a decrypt command over the reference contracts. -/
theorem run_decrypt_from_tagPrepare (hdec : w.getLsbD 1 = false) (hkeep : w.getLsbD 2 = keep)
    (htag : s.host.tagLen = m.tagLen) (hl : Laid v (m.enciphered E) (E (m.ctr 0)) (m.wire E))
    (h : (s.command w .tagPrepare v cs ((ctrCalls s.host.keyCtx (m.ctr 1) (m.ciphertext E)).map (referenceAnswer E)
      ++ .ok (m.mac E) [] :: (eraseCalls keep s.host.keyCtx).map (referenceAnswer E))).Inv) :
    ∃ t, Sys2Proof.core.run 5 (s.command w .tagPrepare v cs ((ctrCalls s.host.keyCtx (m.ctr 1) (m.ciphertext E)).map
        (referenceAnswer E) ++ .ok (m.mac E) [] :: (eraseCalls keep s.host.keyCtx).map (referenceAnswer E))) = .next t
      ∧ Succeeded s t m.payload v.plen
          (cs ++ ctrCalls s.host.keyCtx (m.ctr 1) (m.ciphertext E)
            ++ [.cbcMac s.host.keyCtx m.frame (BitVec.ofNat 32 m.frame.length)] ++ eraseCalls keep s.host.keyCtx) := by
  have hf := h.framed rfl
  have hle : m.tagLen.toNat ≤ 16 := by rw [← htag]; exact hf.tagLen_le
  have hplen : v.plen.toNat = m.payload.length := hl.plen.trans (length_ciphertext E m)
  have hpo : v.payloadOffset.toNat = m.header.length := by rw [hl.offset, header_enciphered]
  have hppad : v.ppad.toNat = (padTo16 m.payload).length := hl.ppad.trans (length_padTo16_congr (length_ciphertext E m))
  have htagPos : v.payloadOffset.toNat + v.plen.toNat = (m.header ++ m.ciphertext E).length := by
    rw [hplen, hpo, List.length_append, length_ciphertext]
  have hpayloadEnd : v.payloadOffset.toNat + v.plen.toNat = (m.header ++ m.payload).length := by
    rw [hplen, hpo, List.length_append]
  have hlen : (v.payloadOffset + v.ppad).toNat = m.frame.length := by
    obtain ⟨-, -, -, -, -, hcap, -⟩ := hf.layout
    rw [length_frame, ← hpo, ← hppad]
    exact toNat_add_of_le_cap hcap
  have hwbuf : v.wbuf.Holds ((m.header ++ m.ciphertext E) ++ m.maskedTag E) := by
    rw [List.append_assoc, ← header_enciphered E m]
    exact hl.wbuf
  have hunmask := step_tagPrepareDec hdec h
  rw [htagPos, hwbuf.readBytes, htag, fitBytes_of_length (length_maskedTag E m), hl.s0, ← ofNat_of_toNat hlen] at hunmask
  have hinv1 := stepKeepsInvariant _ _ h hunmask
  obtain ⟨u, ctr, hu, hcipher⟩ := step_cipherPayload (E := E) (hd := m.header) hinv1 hl.ctr hpo hl.ppad
    (hwbuf.zeroFill (length_maskedTag E m).le)
  rw [hdec, if_neg nofun] at hcipher
  have hinv2 := stepKeepsInvariant _ _ hinv1 hcipher
  have hplain := holds_deciphered hu hpayloadEnd (n := v.ppad.toNat - v.plen.toNat) (by rw [hppad, hplen])
  have hverify := step_tagVerify hinv2 rfl (by rw [htag]; exact candTag_eq hle)
  have hread := Memory.Holds.read_all (l := m.frame) (Memory.holds_padTo16.mpr hplain)
  rw [ofNat_of_toNat hlen, hlen, hread, ← ofNat_of_toNat hlen] at hverify
  have hemit := step_emitPayload hdec (stepKeepsInvariant _ _ hinv2 hverify) hplen hpo hplain
  obtain ⟨t, hrun, ht⟩ := run_emitted hemit hplen.symm hl.used hkeep rfl
  exact ⟨t, (run_of_step hunmask 4).trans ((run_of_step hcipher 3).trans ((run_of_step hverify 2).trans hrun)), ht⟩

/-! ### The whole commands -/

theorem starts_cmdWord {enc : Bool} (hinv : s.Inv) (hidle : s.ctl.phase = .idle)
    (hev : s.env.events = [.hwr 0 (cmdWord 0 keep enc true)]) (ht : s.host.tagLen.toNat ∈ [4, 6, 8, 10, 12, 14, 16])
    (hn7 : 7 ≤ s.host.nonceLen.toNat) (hn13 : s.host.nonceLen.toNat ≤ 13) :
    s.Starts (cmdWord 0 keep enc true) enc keep :=
  ⟨hinv, hidle, hev, getLsbD_cmdWord 0 keep enc true 0, getLsbD_cmdWord 0 keep enc true 1,
    getLsbD_cmdWord 0 keep enc true 2, extract_cmdWord 0 keep enc true, ht, hn7, hn13⟩

/-- The answer to the MAC over the frame; its length is a 32-bit word. -/
theorem referenceAnswer_mac {keyCtx : Word} (h : m.frame.length ≤ s.cap) :
    referenceAnswer E (.cbcMac keyCtx m.frame (BitVec.ofNat 32 m.frame.length)) = .ok (m.mac E) [] := by
  obtain ⟨-, -, hcap⟩ := cap_bounds s
  rw [referenceAnswer, BitVec.toNat_ofNat, Nat.mod_eq_of_lt (by omega)]
  rfl

/-- The call over the ciphertext has the payload's length. -/
theorem ctrCalls_ciphertext (keyCtx : Word) (c : Block) :
    ctrCalls keyCtx c (m.ciphertext E) = if m.payload = [] then []
      else [.ctrEncrypt keyCtx c (padTo16 (m.ciphertext E)) (BitVec.ofNat 32 (padTo16 m.payload).length)] := by
  have hlen := length_ciphertext E m
  rw [ctrCalls, length_padTo16_congr hlen]
  refine if_congr ?_ rfl rfl
  rw [← List.length_eq_zero_iff, hlen, List.length_eq_zero_iff]

/-- A shorter read is the start of a longer one. -/
theorem take_readBytes (u : Memory) (x : Nat) {n k : Nat} (h : n ≤ k) : (u.readBytes x k).take n = u.readBytes x n := by
  rw [readBytes_eq_map, readBytes_eq_map, ← List.map_take, List.take_range, Nat.min_eq_left h]

/-- On decrypt the block reads the message with the ciphertext for its payload. -/
theorem message_eq_enciphered (hm : m = { s.message 0 with payload := m.payload })
    (hlen : s.host.inputLen.toNat = m.payload.length + s.host.tagLen.toNat)
    (hin : s.host.inp.readBytes 0 s.host.inputLen.toNat = m.wire E) :
    s.message m.payload.length = m.enciphered E := by
  have hct : s.host.inp.readBytes 0 m.payload.length = m.ciphertext E := by
    rw [← take_readBytes _ _ (show m.payload.length ≤ s.host.inputLen.toNat by omega), hin, Message.wire,
      List.take_left' (length_ciphertext E m)]
  calc s.message m.payload.length
      = { s.message 0 with payload := m.ciphertext E } := by rw [← hct]; rfl
    _ = m.enciphered E := by rw [Message.enciphered, hm]

/-- The frame ends with the padding, which CAP, a multiple of 16, has room for. -/
theorem frame_length_le (h : m.header.length + m.payload.length ≤ s.cap) : m.frame.length ≤ s.cap := by
  obtain ⟨hcap, -, -⟩ := cap_bounds s
  have hpad := length_padTo16 m.payload
  have haad : m.aadRegion.length % 16 = 0 := (length_padTo16 _).1
  rw [length_header] at h
  rw [length_frame, length_header]
  omega

end

/-- Settles O59: START to COMPOSE_FRAME lay the message out, the encrypt path from TAG_PREPARE emits its wire format. -/
theorem encryptCommandEmitsWireFormat : Obligations.EncryptCommandEmitsWireFormat := by
  intro E s m cs keep hinv hidle hev ht hn7 hn13 hbound hm hfit hcs hans
  have hstarts := starts_cmdWord hinv hidle hev ht hn7 hn13
  replace hcs : cs = [.ecbEncryptBlock s.host.keyCtx (m.ctr 0)]
      ++ [.cbcMac s.host.keyCtx m.frame (BitVec.ofNat 32 m.frame.length)]
      ++ ctrCalls s.host.keyCtx (m.ctr 1) m.payload ++ eraseCalls keep s.host.keyCtx := hcs
  have hanswers : s.env.answers = .ok (E (m.ctr 0)) [] :: .ok (m.mac E) [] ::
      ((ctrCalls s.host.keyCtx (m.ctr 1) m.payload).map (referenceAnswer E)
        ++ (eraseCalls keep s.host.keyCtx).map (referenceAnswer E)) := by
    rw [hans, hcs, ← referenceAnswer_mac (E := E) hfit, ← List.map_append]
    rfl
  obtain ⟨v, hrun, hprepared, hlaid⟩ := run_to_tagPrepare hstarts hm hanswers nofun rfl hbound hfit nofun
  obtain ⟨t, hrest, hend⟩ := run_encrypt_from_tagPrepare hstarts.isEnc hstarts.keepKey (by rw [hm]; rfl) hlaid hprepared
  have hlen : t.result.outLen.toNat = (m.wire E).length := by rw [hend.outLen, hend.length]
  refine ⟨t, (hrun 5).trans hrest, hend.status, hend.phase, ?_, ?_, ?_, fun a ha => ?_⟩
  · rw [hcs]
    exact hend.calls
  · rw [hlen, length_wire, hm]
    rfl
  · rw [hlen, hend.readBytes]
  · exact hend.get_above (hlen ▸ ha)

/-- Settles O60: the block reads the message with its ciphertext, and the decrypt path from TAG_PREPARE deciphers it. -/
theorem decryptCommandReturnsPlaintext : Obligations.DecryptCommandReturnsPlaintext := by
  intro E s m cs keep hinv hidle hev ht hn7 hn13 hbound hm hlen hfit hin hcs hans
  have hstarts := starts_cmdWord hinv hidle hev ht hn7 hn13
  have htag : s.host.tagLen = m.tagLen := by rw [hm]; rfl
  have hheader := header_enciphered E m
  have hframe : m.frame.length ≤ s.cap := frame_length_le (by omega)
  have hframe' : (m.enciphered E).frame.length ≤ s.cap := frame_length_le (by
    rw [hheader, Message.enciphered, length_ciphertext]
    omega)
  rw [← ctrCalls_ciphertext] at hcs
  have hanswers : s.env.answers = .ok (E (m.ctr 0)) [] ::
      ((ctrCalls s.host.keyCtx (m.ctr 1) (m.ciphertext E)).map (referenceAnswer E)
        ++ .ok (m.mac E) [] :: (eraseCalls keep s.host.keyCtx).map (referenceAnswer E)) := by
    rw [hans, hcs, ← referenceAnswer_mac (E := E) hframe, ← List.map_cons, ← List.map_append, List.append_assoc,
      List.append_assoc]
    rfl
  obtain ⟨v, hrun, hprepared, hlaid⟩ := run_to_tagPrepare hstarts
    (message_eq_enciphered hm hlen hin).symm hanswers (by omega) (by rw [if_neg nofun]; omega) hbound hframe'
    (fun _ => by rw [hheader]; exact hfit)
  rw [if_neg nofun, hin] at hlaid
  obtain ⟨t, hrest, hend⟩ := run_decrypt_from_tagPrepare hstarts.isEnc hstarts.keepKey htag hlaid hprepared
  refine ⟨t, (hrun 5).trans hrest, hend.status, hend.phase, ?_, ?_, hend.readBytes, fun a ha => hend.get_above ha⟩
  · rw [hcs]
    exact hend.calls
  · rw [hend.outLen, hend.length]

end Sys2Proof.Machine
end
